-- ==== Sys2Proof/Config.lean ====
section
/-! DEFINITION. What this hardware fixes: the fourteen parameters of spec/00_scope.md R5, this hardware's setting of them,
and the free values: the two OPEN command words and the environment's answers that no input list gives. A free value is a
constant with no body, so nothing can be proved of it. -/

namespace Sys2Proof

/-- The implementation parameters of R5, one field each, as plain numbers, so that a setting that breaks a constraint of
R6 can be written and is then refused (`Config.check` in WellFormed.lean). -/
structure Config where
  /-- `CHANNELS`: number of channels, slots in the bank (fixed). -/
  channels : Nat
  /-- `N`: capacity of each Bounded Averaging Buffer (default). -/
  capacity : Nat
  /-- `SAMPLE_BITS`: width of a raw sample and of a stored average (fixed). -/
  sampleBits : Nat
  /-- `SAMPLE_MAX = 2^SAMPLE_BITS - 1` (fixed). -/
  sampleMax : Nat
  /-- `XFER_BITS`: width of a transfer word in each direction (fixed). -/
  xferBits : Nat
  /-- `TIME_BITS`: width of the millisecond clock, of `t_start` and of `ts` (fixed). -/
  timeBits : Nat
  /-- `WINDOW_MS`: the sampling window in milliseconds (default). -/
  windowMs : Nat
  /-- `ACC_BITS`: width of the accumulator of AVERAGE (derived from `N`). -/
  accBits : Nat
  /-- `PTR_BITS`: width of `hd[c]` and `tl[c]` (derived from `N`). -/
  ptrBits : Nat
  /-- `CNT_BITS`: width of `cnt[c]` (derived from `N`). -/
  cntBits : Nat
  /-- `CH_BITS`: width of `ch` (fixed). -/
  chBits : Nat
  /-- `CMD_BEGIN`: the begin auto-sequence command word (OPEN). -/
  cmdBegin : Nat
  /-- `CMD_READ`: the word of every other transfer (OPEN). -/
  cmdRead : Nat
  /-- `PRIME_XFERS`: throwaway transfers START makes after the begin command (default). -/
  primeXfers : Nat
  deriving DecidableEq, Repr

/-- `ceil(log2(k))`: the least `b` with `2^b >= k` (R8). -/
def ceilLog2 (k : Nat) : Nat := if k ≤ 1 then 0 else Nat.log2 (k - 1) + 1

/-- `ACC_BITS = SAMPLE_BITS + ceil(log2(N))`, in general (R5), with `SAMPLE_BITS` = 12. -/
def accBits (n : Nat) : Nat := 12 + ceilLog2 n

/-- `PTR_BITS = max(1, ceil(log2(N)))`, in general (R5). -/
def ptrBits (n : Nat) : Nat := max 1 (ceilLog2 n)

/-- `CNT_BITS = ceil(log2(N+1))`, in general (R5). -/
def cntBits (n : Nat) : Nat := ceilLog2 (n + 1)

/-- FREE VALUE (log 8): `CMD_BEGIN`, OPEN in R5; no numeric value may be assumed (R85). -/
opaque Config.beginWord : BitVec 16

/-- FREE VALUE (log 8): `CMD_READ`, OPEN in R5; no numeric value may be assumed (R85). -/
opaque Config.readWord : BitVec 16

/-- The parameter setting of this hardware (R5). The machine's types and operations read it: the widths in Word.lean,
the shape of the bank, the accumulator, the window, the priming transfers. It is reducible, so that a type written with
a field of it is the type with the number. -/
@[reducible] def Config.hw : Config :=
  { channels := 16
    capacity := 4
    sampleBits := 12
    sampleMax := 4095
    xferBits := 16
    timeBits := 32
    windowMs := 60000
    accBits := 14
    ptrBits := 2
    cntBits := 3
    chBits := 4
    cmdBegin := Config.beginWord.toNat
    cmdRead := Config.readWord.toNat
    primeXfers := 1 }

/-- `CHANNELS` of this hardware. -/
abbrev channels : Nat := Config.hw.channels

/-- `N` of this hardware. -/
abbrev capacity : Nat := Config.hw.capacity

/-- The bits of state of a setting, as R30 totals them: slots, pointers and counts, averages, `ts`, `phase`, `ch`,
`t_start`, `cs`. -/
def Config.stateBits (c : Config) : Nat :=
  c.channels * c.capacity * c.sampleBits + c.channels * (c.ptrBits + c.ptrBits + c.cntBits) +
    c.channels * c.sampleBits + c.timeBits + 2 + c.chBits + c.timeBits + 1

/-- FREE VALUE (log 2): what `Ready()` answers where the state lists no answer; it may answer 0 for ever (R165). -/
opaque Config.freeReady : Nat → Bool

/-- FREE VALUE (log 2): what `Xfer16` answers where the state lists no answer; any of the 65536 values (R162). -/
opaque Config.freeXfer : Nat → BitVec Config.hw.xferBits

/-- FREE VALUE (log 2): what `Now()` answers where the state lists no answer (R164). -/
opaque Config.freeNow : Nat → BitVec Config.hw.timeBits

end Sys2Proof
end

