-- ==== Sys2Proof/Word.lean ====
section
/-! DEFINITION. The word types of the averaging engine: every value is an unsigned integer of a stated width
(spec/00_scope.md R7), and the widths are parameters of R5. -/

namespace Sys2Proof

/-- `u12`: a raw sample, a slot, a stored average (`SAMPLE_BITS`, R5). -/
abbrev Sample := BitVec Config.hw.sampleBits

/-- `u16`: a transfer word, in either direction (`XFER_BITS`, R5, R162). -/
abbrev XferBits := BitVec Config.hw.xferBits

/-- `u32`: the millisecond clock, `t_start` and `ts` (`TIME_BITS`, R5, R164). -/
abbrev Time := BitVec Config.hw.timeBits

/-- The host command word `CMD_OP[2:0]` (R80). -/
abbrev CmdOp := BitVec 3

end Sys2Proof
end

