-- ==== Sys2Proof/Syntax.lean ====
section
/-! DEFINITION. The host commands: one constructor per row of spec/opcode_table.json (spec/30_encoding.md R80, R81).
No command has an operand (R80, R92). -/

namespace Sys2Proof

/-- The eight values of the command word (R81). -/
inductive Instr where
  /-- Opcode 0, reserved (R142). -/
  | reserved0
  /-- INIT, `init(bus_channel, bus_speed)`; its arguments do not reach the core (R92, R132). -/
  | init
  /-- START, `start_sampling()` (R133). -/
  | start
  /-- STEP, `process_step()` (R134). -/
  | step
  /-- POLL, `is_complete()` (R140). -/
  | poll
  /-- SNAP, `get_snapshot()` (R141). -/
  | snap
  /-- Opcode 6, reserved (R142). -/
  | reserved6
  /-- Opcode 7, reserved (R142). -/
  | reserved7
  deriving DecidableEq, Repr

end Sys2Proof
end

