-- ==== Sys2Proof/Machine/State.lean ====
section
/-! DEFINITION. The state of the averaging engine (spec/10_state.md R30, R43), the inputs and records the model keeps
beside it, and the state after reset (R47). Plain data throughout. -/

namespace Sys2Proof.Machine

/-- One Bounded Averaging Buffer of capacity `n`, as the hardware has it: slots, head pointer, tail pointer, count
(R31 to R33). Pointers are in `0 .. n-1` and the count in `0 .. n` (log 6). -/
structure Buffer (n : Nat) where
  /-- `buf[c][0 .. n-1]`. -/
  slots : Vector Sample n
  /-- `hd[c]`: the slot of the oldest held element. -/
  hd : Fin n
  /-- `tl[c]`: the slot the next ENQUEUE writes. -/
  tl : Fin n
  /-- `cnt[c]`: the number of held elements. -/
  cnt : Fin (n + 1)
  deriving DecidableEq, Repr

/-- One slot of the Channel Sample Bank: a buffer and the latest average (R30, R36). -/
structure Channel (n : Nat) where
  /-- The channel's own buffer. -/
  buffer : Buffer n
  /-- `avg[c]`. -/
  avg : Sample
  deriving DecidableEq, Repr

/-- The phase of the Sampling State Machine (R38); code 3 is never held and has no constructor (U5). -/
inductive Phase where
  /-- No session active. -/
  | idle
  /-- Session active, completion flag false. -/
  | sampling
  /-- Completion flag true. -/
  | complete
  deriving DecidableEq, Repr

/-- The micro-state between two steps of the model (R43): accepting commands, or a STEP held in `WAIT`. `XFER`,
`STORE`, `ADV` and `CHECK` follow `WAIT` with no further hold and lie inside one step (log 5). -/
inductive Micro where
  /-- Accepting commands: `CMD_READY` = 1. -/
  | accepting
  /-- A STEP is held in the ready wait: `CMD_READY` = 0. -/
  | wait
  deriving DecidableEq, Repr

/-- The two words the core sends on the transport (R85): which of the two parameters, not its value (log 8). -/
inductive XferWord where
  /-- `CMD_BEGIN`. -/
  | begin
  /-- `CMD_READ`. -/
  | read
  deriving DecidableEq, Repr

/-- An adapter call with its argument and its answer (R166). -/
inductive Event where
  /-- `Select(b)`. -/
  | select (b : Bool)
  /-- `Xfer16(w)→r`. -/
  | xfer (w : XferWord) (r : XferBits)
  /-- `Ready()→b`. -/
  | ready (b : Bool)
  /-- `Now()→t`. -/
  | now (t : Time)
  deriving DecidableEq, Repr

/-- `RSP_STATUS` (R83). -/
inductive Status where
  /-- The command did what its rule says for the phase it found. -/
  | ok
  /-- A STEP found `phase != Sampling` and did nothing. -/
  | ignored
  /-- A SNAP found `phase != Complete` and returned no snapshot. -/
  | notReady
  /-- Reserved opcode. -/
  | illegal
  deriving DecidableEq, Repr

/-- The snapshot record, a copy by value (R84, R123). -/
structure Snapshot where
  /-- `avg[0..15]`. -/
  avg : Vector Sample channels
  /-- `ts`. -/
  ts : Time
  deriving DecidableEq, Repr

/-- A response (R11, R83): the payload is there only with an OK SNAP (log 9). -/
structure Response where
  /-- `RSP_STATUS`. -/
  status : Status
  /-- `RSP_DONE`: the completion flag after the command. -/
  done : Bool
  /-- `RSP_SNAP`, or absent. -/
  snap : Option Snapshot
  deriving DecidableEq, Repr

/-- What the host and the reset input present to the core at one step of the model (R88, R190; log 1). One entry says
both, so a command and `RST` are never presented in the same step (DESIGN CHOICE, log 18). -/
inductive PortInput where
  /-- `CMD_VALID` = 0 and `RST` not asserted. -/
  | idle
  /-- `CMD_VALID` = 1 with this `CMD_OP`. -/
  | command (op : CmdOp)
  /-- `RST` asserted. -/
  | reset
  deriving DecidableEq, Repr

/-- The environment's answers (R10, R165), in the order they will be given; where a list is empty the answer is a free
value of Config read at `draws`, which then advances (log 2). -/
structure Env where
  /-- Answers to `Ready()`. -/
  ready : List Bool
  /-- Answers to `Xfer16`. -/
  xfer : List XferBits
  /-- Answers to `Now()`. -/
  now : List Time
  /-- How many free answers have been drawn. -/
  draws : Nat
  deriving DecidableEq, Repr

/-- The whole state: R30, the micro-state of R43, and the model's own inputs and records. -/
structure State where
  /-- The Channel Sample Bank's sixteen slots: `buf`, `hd`, `tl`, `cnt`, `avg` (R30). -/
  chans : Vector (Channel capacity) channels
  /-- The session timestamp `ts` (R37). -/
  ts : Time
  /-- `phase` (R38). -/
  phase : Phase
  /-- The active channel index `ch` (R40). -/
  ch : Fin channels
  /-- The session-start timestamp `t_start` (R41). -/
  tStart : Time
  /-- The mirror of the select line, `cs` (R42). -/
  cs : Bool
  /-- The micro-state (R43). -/
  micro : Micro
  /-- MODEL'S OWN: what the host and `RST` present, one entry per step, the head now (log 1). -/
  port : List PortInput
  /-- MODEL'S OWN: the environment's answers (log 2). -/
  env : Env
  /-- MODEL'S OWN RECORD: the event trace, oldest first (R166). -/
  trace : List Event
  /-- MODEL'S OWN RECORD: the responses given, oldest first (R11). -/
  responses : List Response
  deriving DecidableEq, Repr

/-- The block raises no exception and takes no trap (R170): a step never ends in a fault, so there is no constructor
(log 10). -/
inductive Fault where
  deriving DecidableEq, Repr

/-- Every command has its meaning; no arm raises this (log 10). -/
inductive Refusal where
  /-- Would be raised by an arm of `exec` that has no meaning yet; none does. Safe. -/
  | notModelled (mnemonic : String)
  deriving DecidableEq, Repr

/-- A channel after reset: empty, average 0 (R47); the slots, unspecified and unobservable, hold 0 (log 4). -/
def Channel.reset : Channel capacity :=
  { buffer := { slots := Vector.replicate capacity 0, hd := 0, tl := 0, cnt := 0 }, avg := 0 }

/-- The machine right after hardware reset (R47, R190): phase Idle, waiting for a command. Nothing is presented and
nothing recorded yet (log 3). -/
def State.reset : State :=
  { chans := Vector.replicate channels Channel.reset
    ts := 0
    phase := .idle
    ch := 0
    tStart := 0
    cs := false
    micro := .accepting
    port := []
    env := { ready := [], xfer := [], now := [], draws := 0 }
    trace := []
    responses := [] }

end Sys2Proof.Machine
end

