-- ==== Sys2Proof/Machine/Buffer.lean ====
section
/-! DEFINITION. The Bounded Averaging Buffer (spec/40_buffer.md): BUF_INIT, ENQUEUE, EVICT, AVERAGE, for any capacity
`n`. A buffer holds a pointer in `0 .. n-1`, so `n >= 1` (R6) wherever a buffer exists. -/

namespace Sys2Proof.Machine

/-- `(p + 1) mod n` (R32, R104). -/
def nextIndex {n : Nat} (p : Fin n) : Fin n := ⟨(p.val + 1) % n, Nat.mod_lt _ p.pos⟩

/-- The slot index of the `k`-th held element, `(hd + k) mod n` (R34, R105). -/
def Buffer.slotIndex {n : Nat} (b : Buffer n) (k : Nat) : Fin n :=
  ⟨(b.hd.val + k) % n, Nat.mod_lt _ b.hd.pos⟩

/-- Head-relative indexed load (R105). The premise makes the read of a slot that is not held unwritable (R35, U4). -/
def Buffer.held {n : Nat} (b : Buffer n) (k : Nat) (_ : k < b.cnt.val) : Sample :=
  b.slots.get (b.slotIndex k)

/-- `contents(c)`: the held elements, oldest first (R34). -/
def Buffer.contents {n : Nat} (b : Buffer n) : List Sample :=
  List.ofFn fun k : Fin b.cnt.val => b.held k.val k.isLt

/-- BUF_INIT (R100): both pointers and the count to 0; the slots are not written. -/
def Buffer.init {n : Nat} (b : Buffer n) : Buffer n :=
  { b with hd := ⟨0, b.hd.pos⟩, tl := ⟨0, b.hd.pos⟩, cnt := ⟨0, Nat.succ_pos n⟩ }

/-- EVICT (R102): drop the single oldest element. Its precondition `cnt >= 1` is a hypothesis. -/
def Buffer.evict {n : Nat} (b : Buffer n) (_ : 1 ≤ b.cnt.val) : Buffer n :=
  { b with hd := nextIndex b.hd, cnt := ⟨b.cnt.val - 1, by omega⟩ }

/-- The tail store with post-increment of ENQUEUE (R101, R105); `cnt + 1` is computed only below capacity (R104). -/
def Buffer.appendTail {n : Nat} (b : Buffer n) (h : b.cnt.val < n) (v : Sample) : Buffer n :=
  { b with
    slots := b.slots.set b.tl.val v b.tl.isLt
    tl := nextIndex b.tl
    cnt := ⟨b.cnt.val + 1, by omega⟩ }

/-- ENQUEUE (R101): at capacity evict the oldest first, then append at the tail. Never fails. -/
def Buffer.enqueue {n : Nat} (b : Buffer n) (v : Sample) : Buffer n :=
  if h : b.cnt.val = n then
    (b.evict (by have := b.hd.pos; omega)).appendTail
      (by have := b.hd.pos; simp only [Buffer.evict]; omega) v
  else
    b.appendTail (by have := b.cnt.isLt; omega) v

/-- The accumulator `acc` of AVERAGE, `w` = `ACC_BITS` wide, after the loop over the held elements (R103, R44). -/
def Buffer.accumulate {n : Nat} (w : Nat) (b : Buffer n) : BitVec w :=
  b.contents.foldl (fun acc v => acc + v.setWidth w) 0

/-- AVERAGE (R103): 0 if empty, else the accumulator, `w` = `ACC_BITS` wide, divided by the count, truncated to
`SAMPLE_BITS` bits. -/
def Buffer.average {n : Nat} (w : Nat) (b : Buffer n) : Sample :=
  if b.cnt.val = 0 then 0 else BitVec.ofNat Config.hw.sampleBits ((b.accumulate w).toNat / b.cnt.val)

end Sys2Proof.Machine
end

