-- ==== Sys2Proof/Machine/Bank.lean ====
section
/-! DEFINITION. The Channel Sample Bank (spec/41_bank.md): BANK_INIT, RECORD, SNAPSHOT. A channel index has a type with
exactly `CHANNELS` values, so an out-of-range RECORD cannot be written (R122, U1). -/

namespace Sys2Proof.Machine

/-- Channel `c` of the bank. -/
def State.chan (s : State) (c : Fin channels) : Channel capacity := s.chans.get c

/-- The slot address `a = c*N + i` of slot `i` of channel `c` (R61). -/
def slotAddress (c : Fin channels) (i : Fin capacity) : Fin (channels * capacity) :=
  ⟨c.val * capacity + i.val, by
    have h1 : c.val < 16 := c.isLt
    have h2 : i.val < 4 := i.isLt
    show c.val * 4 + i.val < 16 * 4
    omega⟩

/-- `MemRead(a, 1) = buf[a div N][a mod N]` (R9, R61): the sample store by slot address. The host has no such access
(R60); statements about what a command leaves of the store are written with it. -/
def State.memRead (s : State) (a : Fin (channels * capacity)) : Sample :=
  (s.chan ⟨a.val / capacity, Nat.div_lt_of_lt_mul a.isLt⟩).buffer.slots.get
    ⟨a.val % capacity, Nat.mod_lt _ (by decide)⟩

/-- One channel's part of BANK_INIT (R120). -/
def Channel.init {n : Nat} (c : Channel n) : Channel n := { buffer := c.buffer.init, avg := 0 }

/-- One channel's part of RECORD (R121): enqueue, then the fresh average, from an accumulator `w` bits wide. -/
def Channel.record {n : Nat} (w : Nat) (c : Channel n) (v : Sample) : Channel n :=
  { buffer := c.buffer.enqueue v, avg := (c.buffer.enqueue v).average w }

/-- BANK_INIT (R120): every buffer empty, every average 0, `ts` 0. -/
def State.bankInit (s : State) : State :=
  { s with chans := Vector.ofFn fun c : Fin channels => (s.chan c).init, ts := 0 }

/-- RECORD(c, v) (R121): writes channel `c` only. -/
def State.record (cfg : Config) (c : Fin channels) (v : Sample) (s : State) : State :=
  { s with chans := s.chans.set c.val ((s.chan c).record cfg.accBits v) c.isLt }

/-- SNAPSHOT (R123): a copy by value of the averages and `ts`, all read at one instant. -/
def State.snapshot (s : State) : Snapshot :=
  { avg := Vector.ofFn fun c : Fin channels => (s.chan c).avg, ts := s.ts }

end Sys2Proof.Machine
end

