-- ==== Sys2Proof/Machine/Transport.lean ====
section
/-! DEFINITION. The four primitives of the Converter Transport Adapter (spec/43_transport.md R160 to R164). For each
primitive with an answer there is the answer the environment gives in a state, and the state after the call, which has
consumed the answer and recorded the event (R166). The answers are inputs (R10, R165; log 2). -/

namespace Sys2Proof.Machine

/-- The answer to the next `Ready()`. -/
def Env.readyAnswer (e : Env) : Bool :=
  match e.ready with
  | b :: _ => b
  | [] => Config.freeReady e.draws

/-- The answers left after a `Ready()`. -/
def Env.afterReady (e : Env) : Env :=
  match e.ready with
  | _ :: bs => { e with ready := bs }
  | [] => { e with draws := e.draws + 1 }

/-- The answer to the next `Xfer16`. -/
def Env.xferAnswer (e : Env) : XferBits :=
  match e.xfer with
  | r :: _ => r
  | [] => Config.freeXfer e.draws

/-- The answers left after an `Xfer16`. -/
def Env.afterXfer (e : Env) : Env :=
  match e.xfer with
  | _ :: rs => { e with xfer := rs }
  | [] => { e with draws := e.draws + 1 }

/-- The answer to the next `Now()`. -/
def Env.nowAnswer (e : Env) : Time :=
  match e.now with
  | t :: _ => t
  | [] => Config.freeNow e.draws

/-- The answers left after a `Now()`. -/
def Env.afterNow (e : Env) : Env :=
  match e.now with
  | _ :: ts => { e with now := ts }
  | [] => { e with draws := e.draws + 1 }

/-- `Select(b)` (R161): `cs <- b`, and the event; with `b == cs` only the trace changes (R66). -/
def State.select (b : Bool) (s : State) : State := { s with cs := b, trace := s.trace ++ [.select b] }

/-- The state after `Xfer16(w)` (R162); its answer is `s.env.xferAnswer`. -/
def State.xfer16 (w : XferWord) (s : State) : State :=
  { s with env := s.env.afterXfer, trace := s.trace ++ [.xfer w s.env.xferAnswer] }

/-- The state after one poll of `Ready()` (R163); its answer is `s.env.readyAnswer`. -/
def State.pollReady (s : State) : State :=
  { s with env := s.env.afterReady, trace := s.trace ++ [.ready s.env.readyAnswer] }

/-- The state after one `Now()` (R164); its answer is `s.env.nowAnswer`. -/
def State.readClock (s : State) : State :=
  { s with env := s.env.afterNow, trace := s.trace ++ [.now s.env.nowAnswer] }

/-- The word that goes out on `XFER_TX` for a transfer (R85, R167). -/
def XferWord.tx (cfg : Config) (w : XferWord) : XferBits :=
  match w with
  | .begin => BitVec.ofNat 16 cfg.cmdBegin
  | .read => BitVec.ofNat 16 cfg.cmdRead

/-- The output `CS_ACTIVE`, equal to `cs` (R167). -/
def State.csActive (s : State) : Bool := s.cs

end Sys2Proof.Machine
end

