-- ==== Sys2Proof/Machine/Flags.lean ====
section
/-! DEFINITION. The one flag of the block, the completion flag (spec/10_state.md R39), `CMD_READY` (R88), and the
deadline comparison (spec/42_sequencer.md R139, R150, R151). There are no condition codes, no carry and no sticky bit. -/

namespace Sys2Proof.Machine

/-- `done = (phase == Complete)` (R39). -/
def State.done (s : State) : Bool := decide (s.phase = .complete)

/-- `CMD_READY`: 1 exactly when the micro-state is "accepting commands" (R88). -/
def State.cmdReady (s : State) : Bool := decide (s.micro = .accepting)

/-- `Elapsed()` for a clock answer: `(t - t_start) mod 2^32` (R150). -/
def elapsedSince (tStart t : Time) : Time := t - tStart

/-- The value `Elapsed()` has when called now; the call itself reads the clock once (`State.readClock`). -/
def State.elapsed (s : State) : Time := elapsedSince s.tStart s.env.nowAnswer

/-- `e >= WINDOW_MS`, unsigned, true at equality (R139, R151). -/
def deadlineMet (cfg : Config) (e : Time) : Bool := decide (cfg.windowMs ≤ e.toNat)

end Sys2Proof.Machine
end

