-- ==== Sys2Proof/Machine/Operands.lean ====
section
/-! DEFINITION. The fields assembled from or laid out into bits: the sample of a response word (spec/42_sequencer.md
R136, spec/30_encoding.md R86, R87), the registers' codes in their widths (spec/10_state.md R30), the response's status
code (R83) and the snapshot payload (R84). -/

namespace Sys2Proof.Machine

/-- `v = r[11:0]`: bits 15:12 take no part in anything (R136). -/
def sampleOf (r : XferBits) : Sample := r.extractLsb' 0 Config.hw.sampleBits

/-- The code of `RSP_STATUS` (R83). -/
def Status.code (st : Status) : BitVec 2 :=
  match st with
  | .ok => 0
  | .ignored => 1
  | .notReady => 2
  | .illegal => 3

/-- The code of `phase` in its 2 bits (R38). -/
def Phase.code (p : Phase) : BitVec 2 :=
  match p with
  | .idle => 0
  | .sampling => 1
  | .complete => 2

/-- `hd[c]` in its register, `PTR_BITS` wide (R5, R30). -/
def Buffer.hdCode {n : Nat} (b : Buffer n) : BitVec (ptrBits n) := BitVec.ofNat (ptrBits n) b.hd.val

/-- `tl[c]` in its register, `PTR_BITS` wide (R5, R30). -/
def Buffer.tlCode {n : Nat} (b : Buffer n) : BitVec (ptrBits n) := BitVec.ofNat (ptrBits n) b.tl.val

/-- `cnt[c]` in its register, `CNT_BITS` wide (R5, R30). -/
def Buffer.cntCode {n : Nat} (b : Buffer n) : BitVec (cntBits n) := BitVec.ofNat (cntBits n) b.cnt.val

/-- `ch` in its register, `CH_BITS` wide (R5, R30). -/
def State.chCode (s : State) : BitVec Config.hw.chBits := BitVec.ofNat Config.hw.chBits s.ch.val

/-- Lane `k` of the payload (R84): averages zero-extended to 16 bits, then `ts` low half, then high half. -/
def Snapshot.lane (p : Snapshot) (k : Fin 18) : BitVec 16 :=
  if h : k.val < channels then (p.avg.get ⟨k.val, h⟩).setWidth 16
  else if k.val = 16 then p.ts.extractLsb' 0 16
  else p.ts.extractLsb' 16 16

/-- Lanes packed with the first in the least significant position (R84). -/
def packLanes (lanes : List (BitVec 16)) : Nat := lanes.foldr (fun x acc => x.toNat + 65536 * acc) 0

/-- `RSP_SNAP`: the 288 wires of the payload (R84). -/
def Snapshot.payload (p : Snapshot) : BitVec 288 := BitVec.ofNat 288 (packLanes (List.ofFn p.lane))

/-- The record a host reads back from the wires (R84). -/
def unpackPayload (w : BitVec 288) : Snapshot :=
  { avg := Vector.ofFn fun k : Fin channels => w.extractLsb' (16 * k.val) Config.hw.sampleBits
    ts := w.extractLsb' 256 Config.hw.timeBits }

/-- The payload wires of a response: there are none where no snapshot is given (R83, U3). -/
def Response.payload (r : Response) : Option (BitVec 288) := r.snap.map Snapshot.payload

end Sys2Proof.Machine
end

