-- ==== Sys2Proof/Machine/Ops.lean ====
section
/-! DEFINITION. The shared operations of the sequencer (spec/42_sequencer.md section 4), over any Config.
The block has no exception to take and none to return from (spec/60_exceptions.md R170, R177, R178): every abnormal
condition is a status code of `State.respond`, or the hold of `State.hold`. -/

namespace Sys2Proof.Machine

/-- `respond(status, done, snap)` (R11): `done` is read after every effect of the command; the core accepts commands
again (R88). -/
def State.respond (st : Status) (snap : Option Snapshot) (s : State) : State :=
  { s with
    micro := .accepting
    responses := s.responses ++ [{ status := st, done := s.done, snap := snap }] }

/-- ADVANCE (R137): `ch <- (ch + 1) mod CHANNELS`. -/
def State.advance (s : State) : State := { s with ch := nextIndex s.ch }

/-- STAMP (R138): `ts <- Elapsed()`, one clock read. -/
def State.stamp (s : State) : State := { s.readClock with ts := s.elapsed }

/-- STAMP, executed only when ADVANCE has just produced `ch == 0` (R134, R138). -/
def State.stampOnWrap (s : State) : State := if s.ch.val = 0 then s.stamp else s

/-- The write of `phase`. -/
def State.setPhase (p : Phase) (s : State) : State := { s with phase := p }

/-- DEADLINE_CHECK (R139): acts only in phase Sampling; one clock read; completes the session at or past the window. -/
def State.deadlineCheck (cfg : Config) (s : State) : State :=
  if s.phase = .sampling then
    if deadlineMet cfg s.elapsed then (s.readClock.setPhase .complete).select false
    else s.readClock
  else s

/-- `k` throwaway transfers of `CMD_READ` (R133). -/
def State.primingXfers (k : Nat) (s : State) : State :=
  match k with
  | 0 => s
  | k + 1 => State.primingXfers k (s.xfer16 .read)

/-- The session state at INIT and at hardware reset, after BANK_INIT (R132, R190). -/
def State.clearSession (s : State) : State := { s with phase := .idle, ch := 0, tStart := 0 }

/-- Hardware reset (R190): the effect of INIT on R30, `cs` forced to 0 with no event, a command in progress aborted.
The slots keep their old values (R35; log 4); inputs and records are not core state and stay. -/
def State.hardReset (s : State) : State :=
  { s.bankInit.clearSession with cs := false, micro := .accepting }

/-- START's writes before its transfers (R133): `ch <- 0; t_start <- Now(); phase <- Sampling`. -/
def State.openSession (s : State) : State :=
  { s.readClock with ch := 0, tStart := s.env.nowAnswer, phase := .sampling }

/-- START up to its response (R133). -/
def State.startSession (cfg : Config) (s : State) : State :=
  State.primingXfers cfg.primeXfers ((s.openSession.select true).xfer16 .begin)

/-- The hold of a STEP in WAIT_READY after a poll that answered 0 (R135): the micro-state is `WAIT`, nothing of R30
changes. -/
def State.hold (s : State) : State := { s with micro := .wait }

/-- The rest of a performed STEP, after `Ready()` has answered 1 (R134). -/
def State.performStep (cfg : Config) (s : State) : State :=
  let r := s.env.xferAnswer
  let recorded := (s.xfer16 .read).record cfg s.ch (sampleOf r)
  (recorded.advance.stampOnWrap.deadlineCheck cfg).respond .ok none

/-- WAIT_READY (R135), one poll: leave the wait on 1, stay held on 0 (log 5). -/
def State.waitReady (cfg : Config) (s : State) : State :=
  if s.env.readyAnswer then s.pollReady.performStep cfg else s.pollReady.hold

/-- The response to a reserved opcode (R142). -/
def State.illegal (s : State) : State := s.respond .illegal none

end Sys2Proof.Machine
end

