-- ==== Sys2Proof/Machine/Sequencer.lean ====
section
/-! DEFINITION. The meanings of the host commands (spec/42_sequencer.md R132 to R144), as accepted commands. -/

namespace Sys2Proof.Machine

/-- INIT (R132): BANK_INIT, session to Idle, `Select(0)`; accepted in every phase. -/
def execInit (s : State) : Host.Outcome State Fault Refusal :=
  .next ((s.bankInit.clearSession.select false).respond .ok none)

/-- START (R133): the same in every phase (R145). -/
def execStart (s : State) : Host.Outcome State Fault Refusal :=
  .next ((s.startSession Config.hw).respond .ok none)

/-- STEP (R134): ignored outside Sampling (R143, R144), else the ready wait and one sample. -/
def execStep (s : State) : Host.Outcome State Fault Refusal :=
  if s.phase = .sampling then .next (s.waitReady Config.hw) else .next (s.respond .ignored none)

/-- POLL (R140): the deadline check, then `done`. -/
def execPoll (s : State) : Host.Outcome State Fault Refusal :=
  .next ((s.deadlineCheck Config.hw).respond .ok none)

/-- SNAP (R141): the snapshot in Complete, NOT_READY otherwise; no clock read. -/
def execSnap (s : State) : Host.Outcome State Fault Refusal :=
  if s.phase = .complete then .next (s.respond .ok (some s.snapshot)) else .next (s.respond .notReady none)

/-- Reserved opcode 0 (R142). -/
def execReserved0 (s : State) : Host.Outcome State Fault Refusal := .next s.illegal

/-- Reserved opcode 6 (R142). -/
def execReserved6 (s : State) : Host.Outcome State Fault Refusal := .next s.illegal

/-- Reserved opcode 7 (R142). -/
def execReserved7 (s : State) : Host.Outcome State Fault Refusal := .next s.illegal

end Sys2Proof.Machine
end

