-- ==== Sys2Proof/WellFormed.lean ====
section
/-! DEFINITION. Well-formedness. A command has no operand, so every `Instr` is well formed (spec/30_encoding.md R80);
what can be ill formed is a number offered as a command word, and a parameter setting (spec/00_scope.md R6). -/

namespace Sys2Proof

/-- Every command is well formed: there is no operand that could be out of range (R80). -/
def Instr.wellFormed (_ : Instr) : Bool := true

/-- A command word is 3 bits and nothing else (R80): a number is one iff it is below 8. -/
def commandWordOk (w : Nat) : Bool := decide (w < 8)

/-- The constraints of R6, each with a name of its own. -/
inductive ConfigError where
  /-- `CHANNELS >= 1` fails. -/
  | noChannels
  /-- `N >= 1` fails. -/
  | noCapacity
  /-- `N * SAMPLE_MAX < 2^ACC_BITS` fails: the accumulator could overflow. -/
  | accumulatorTooNarrow
  /-- `WINDOW_MS < 2^TIME_BITS` fails. -/
  | windowTooWide
  /-- `CMD_BEGIN < 2^16` fails. -/
  | beginWordTooWide
  /-- `CMD_READ < 2^16` fails. -/
  | readWordTooWide
  deriving DecidableEq, Repr

/-- "A model should refuse a configuration that breaks a constraint" (R6): the first broken constraint, if any. -/
def Config.check (c : Config) : Option ConfigError :=
  if c.channels = 0 then some .noChannels
  else if c.capacity = 0 then some .noCapacity
  else if 2 ^ c.accBits ≤ c.capacity * c.sampleMax then some .accumulatorTooNarrow
  else if 2 ^ c.timeBits ≤ c.windowMs then some .windowTooWide
  else if 2 ^ 16 ≤ c.cmdBegin then some .beginWordTooWide
  else if 2 ^ 16 ≤ c.cmdRead then some .readWordTooWide
  else none

/-- R5's formulas for the derived parameters, `SAMPLE_MAX` and `CH_BITS`. A wider accumulator is legal all the same
(R6; D5: indistinguishable). -/
abbrev Config.DerivedAsStated (c : Config) : Prop :=
  c.sampleMax = 2 ^ c.sampleBits - 1 ∧ c.accBits = c.sampleBits + ceilLog2 c.capacity ∧
  c.ptrBits = Sys2Proof.ptrBits c.capacity ∧ c.cntBits = Sys2Proof.cntBits c.capacity ∧
  c.chBits = ceilLog2 c.channels

/-- A legal parameter setting (R6). -/
abbrev Config.Legal (c : Config) : Prop := c.check = none

end Sys2Proof
end

