-- ==== Sys2Proof/Decode.lean ====
section
/-! DEFINITION. Decoding and encoding of the host command word (spec/30_encoding.md R80, R81). Decoding is total: all
eight 3-bit values have a row; a number that is no 3-bit word is refused by name. -/

namespace Sys2Proof

/-- Why a number is no command word. -/
inductive DecodeError where
  /-- It needs more than the 3 bits of `CMD_OP` (R80: "one word of 3 bits ... and nothing else"). -/
  | widerThanCommandWord
  deriving DecidableEq, Repr

/-- Format `CMD`: the opcode map of R81. -/
def decode (op : CmdOp) : Instr :=
  match op.toNat with
  | 0 => .reserved0
  | 1 => .init
  | 2 => .start
  | 3 => .step
  | 4 => .poll
  | 5 => .snap
  | 6 => .reserved6
  | _ => .reserved7

/-- Decoding of any number: a command, or a refusal by name. -/
def decodeNumber (w : Nat) : Except DecodeError Instr :=
  if commandWordOk w then .ok (decode (BitVec.ofNat 3 w)) else .error .widerThanCommandWord

/-- The command word of a command (R81). -/
def encode (i : Instr) : CmdOp :=
  match i with
  | .reserved0 => 0b000#3
  | .init => 0b001#3
  | .start => 0b010#3
  | .step => 0b011#3
  | .poll => 0b100#3
  | .snap => 0b101#3
  | .reserved6 => 0b110#3
  | .reserved7 => 0b111#3

/-- The instruction the decoder reads from a row's word, numbered as spec/opcode_table.json numbers its bits: bits at
and above `nbits` are 0. -/
def decodeTableWord (nbits w : Nat) : Option Instr :=
  match decodeNumber (w % 2 ^ nbits) with
  | .ok i => some i
  | .error _ => none

end Sys2Proof
end

