-- ==== Sys2Proof/Machine/Port.lean ====
section
/-! DEFINITION. The command port (spec/30_encoding.md R88) and the reset input (spec/70_reset_and_hazards.md R190):
what one step of the machine has to do, from what is presented and from the micro-state. -/

namespace Sys2Proof.Machine

/-- What a step does with the state it works on. -/
inductive Action where
  /-- `RST` is asserted. -/
  | reset (s : State)
  /-- No command is presented and none is held: nothing happens. -/
  | idle (s : State)
  /-- A STEP is held: one more poll of `Ready()`. -/
  | poll (s : State)
  /-- A command is accepted. -/
  | run (i : Instr) (s : State)
  deriving DecidableEq, Repr

/-- The state with the presented entry taken off the port. -/
def State.takeInput (s : State) : State := { s with port := s.port.tail }

/-- The port's rule. `RST` comes first, in any micro-state (R190). While a STEP is held no command is accepted: it stays
presented and is not queued (R88). An empty list: the host presents nothing (log 1).
DESIGN CHOICE (log 18): commands and `RST` share the one list, and only its head is seen. A command at the head stays
there for as long as a STEP is held, so a `RST` listed behind it is not asserted before that command has been accepted; a
run in which `RST` ends the hold (R173) is written with `RST` at the head, after the idle entries of the polls before it. -/
def portAction (s : State) : Action :=
  match s.port, s.micro with
  | .reset :: _, _ => .reset s.takeInput
  | .idle :: _, .accepting => .idle s.takeInput
  | .idle :: _, .wait => .poll s.takeInput
  | .command op :: _, .accepting => .run (decode op) s.takeInput
  | .command _ :: _, .wait => .poll s
  | [], .accepting => .idle s
  | [], .wait => .poll s

/-- The state in which the host presents this command word and the core is accepting commands (log 16). -/
def State.present (op : CmdOp) (s : State) : State :=
  { s with micro := .accepting, port := .command op :: s.port }

end Sys2Proof.Machine
end

