-- ==== Sys2Proof/Machine/Step.lean ====
section
/-! DEFINITION. One step of the machine: the accepted command, one poll of a held STEP (spec/42_sequencer.md R135), a
hardware reset (R190), or nothing. -/

namespace Sys2Proof.Machine

/-- One step. -/
def step (s : State) : Host.Outcome State Fault Refusal :=
  match portAction s with
  | .reset t => .next t.hardReset
  | .idle t => .next t
  | .poll t => .next (t.waitReady Config.hw)
  | .run i t => exec i t

/-- `s` with the command of the table word `w` (bits at and above `nbits` zero) presented at the port, the core
accepting: the very next step runs it (log 16). -/
def State.withFetchWord (s : State) (nbits w : Nat) : State :=
  s.present (BitVec.ofNat 3 (w % 2 ^ nbits))

end Sys2Proof.Machine
end

