-- ==== Sys2Proof/Machine/RunningSum.lean ====
section
/-! DEFINITION. The running-sum form of the buffer that R109 permits (a per-channel accumulator `sum[c]`). It is no
state of the machine (R44, R109); statements compare it with the normative form. -/

namespace Sys2Proof.Machine

/-- A buffer with `sum[c]`, `w` = `ACC_BITS` wide (R109). -/
structure SumBuffer (n w : Nat) where
  /-- The buffer as in the normative form. -/
  buffer : Buffer n
  /-- `sum[c]`. -/
  sum : BitVec w
  deriving DecidableEq, Repr

/-- BUF_INIT sets the sum to 0 (R109). -/
def SumBuffer.init {n w : Nat} (b : SumBuffer n w) : SumBuffer n w := { buffer := b.buffer.init, sum := 0 }

/-- ENQUEUE with the running sum (R109): at capacity the oldest slot is read before it is overwritten. -/
def SumBuffer.enqueue {n w : Nat} (b : SumBuffer n w) (v : Sample) : SumBuffer n w :=
  { buffer := b.buffer.enqueue v
    sum :=
      if b.buffer.cnt.val = n then
        b.sum - (b.buffer.slots.get b.buffer.hd).setWidth w + v.setWidth w
      else b.sum + v.setWidth w }

/-- AVERAGE from the running sum (R109). -/
def SumBuffer.average {n w : Nat} (b : SumBuffer n w) : Sample :=
  if b.buffer.cnt.val = 0 then 0 else BitVec.ofNat Config.hw.sampleBits (b.sum.toNat / b.buffer.cnt.val)

end Sys2Proof.Machine
end

