-- ==== Sys2Proof/Safety.lean ====
section
/-! DEFINITION. What statements about the machine are written in: the invariants of spec/10_state.md R46, what a host can
and cannot tell apart (R34, R35), runs of steps, and readings of the event trace (spec/43_transport.md R166). -/

namespace Sys2Proof.Safety

open Sys2Proof.Machine

/-- `mean([]) = 0`, `mean(L) = (Σ L) div |L|` otherwise, exact over the naturals (R46, R103). -/
def mean (l : List Sample) : Nat :=
  if l = [] then 0 else (l.map BitVec.toNat).sum / l.length

/-- R46 item 2: `tl == (hd + cnt) mod N`. -/
def BufferWf {n : Nat} (b : Buffer n) : Prop := b.tl.val = (b.hd.val + b.cnt.val) % n

/-- R46 items 2 and 3 for one channel. -/
def ChannelWf {n : Nat} (c : Channel n) : Prop :=
  BufferWf c.buffer ∧ c.avg.toNat = mean c.buffer.contents

/-- R46, all six items, and that only a session holds a STEP (R43, R135). Items 1, 4 and 6 hold by the fields' types
and are said here all the same. -/
structure StateInv (s : State) : Prop where
  /-- Item 1. -/
  countLe : ∀ c : Fin channels, (s.chan c).buffer.cnt.val ≤ capacity
  /-- Item 2. -/
  tail : ∀ c : Fin channels, BufferWf (s.chan c).buffer
  /-- Item 3. -/
  average : ∀ c : Fin channels, (s.chan c).avg.toNat = mean (s.chan c).buffer.contents
  /-- Item 4. -/
  index : s.ch.val < channels ∧ (s.phase = .idle ∨ s.phase = .sampling ∨ s.phase = .complete)
  /-- Item 5. -/
  selected : s.cs = true ↔ s.phase = .sampling
  /-- Item 6. -/
  range : ∀ c : Fin channels, (s.chan c).avg.toNat ≤ 4095 ∧ ∀ v ∈ (s.chan c).buffer.contents, v.toNat ≤ 4095
  /-- A held STEP was accepted in phase Sampling, and nothing has changed since. -/
  heldInSession : s.micro = .wait → s.phase = .sampling

/-- Two states that differ at most in how the buffers are laid out (slots, pointers), with equal contents and averages:
what R34 and R35 say no observation can tell apart. -/
def SameVisible (s t : State) : Prop :=
  (∀ c : Fin channels, (s.chan c).buffer.contents = (t.chan c).buffer.contents ∧ (s.chan c).avg = (t.chan c).avg) ∧
    t = { s with chans := t.chans }

/-- The core's own state of R30 is the same in both. -/
def SameCore (s t : State) : Prop :=
  t.chans = s.chans ∧ t.ts = s.ts ∧ t.phase = s.phase ∧ t.ch = s.ch ∧ t.tStart = s.tStart ∧ t.cs = s.cs

/-- `k` steps of the machine, stopping at a fault or a refusal. -/
def runFor : Nat → State → Host.Outcome State Fault Refusal
  | 0, s => .next s
  | k + 1, s =>
    match Sys2Proof.Machine.step s with
    | .next t => runFor k t
    | .fault f => .fault f
    | .refused r => .refused r

/-- The port after `k` steps of a held STEP with no reset presented: an idle entry at the head is taken off at each
step, a command at the head stays (R88), with all that is listed behind it (log 18). -/
def portAfterPolls : Nat → List PortInput → List PortInput
  | k + 1, .idle :: rest => portAfterPolls k rest
  | _, port => port

/-- The next `k` answers to `Ready()` are all 0. -/
def ReadyLowFor (k : Nat) (e : Env) : Prop := ∀ j < k, (Env.afterReady^[j] e).readyAnswer = false

/-- `PerformedSteps k s t`: from `s` to `t` by STEPs alone, `k` of which were performed (R16); between them any number
of polls that answered 0. -/
inductive PerformedSteps : Nat → State → State → Prop where
  /-- No STEP yet. -/
  | refl (s : State) : PerformedSteps 0 s s
  /-- A poll that answered 0: the STEP is held. -/
  | held {k : Nat} {s u t : State} (h : PerformedSteps k s u) (hp : u.phase = .sampling)
      (hr : u.env.readyAnswer = false) (he : Sys2Proof.Machine.exec .step u = .next t) : PerformedSteps k s t
  /-- A poll that answered 1: the STEP is performed. -/
  | performed {k : Nat} {s u t : State} (h : PerformedSteps k s u) (hp : u.phase = .sampling)
      (hr : u.env.readyAnswer = true) (he : Sys2Proof.Machine.exec .step u = .next t) : PerformedSteps (k + 1) s t

/-- The result of a `CMD_READ` transfer, if the event is one. -/
def readResult (e : Event) : Option XferBits :=
  match e with
  | .xfer .read r => some r
  | .xfer .begin _ => none
  | .select _ => none
  | .ready _ => none
  | .now _ => none

/-- The results of the `CMD_READ` transfers of a trace, in order. -/
def readResults (tr : List Event) : List XferBits := tr.filterMap readResult

/-- The count of `CMD_READ` transfers since the last `CMD_BEGIN`, after one more event. -/
def countReads (n : Nat) (e : Event) : Nat :=
  match e with
  | .xfer .begin _ => 0
  | .xfer .read _ => n + 1
  | .select _ => n
  | .ready _ => n
  | .now _ => n

/-- The number of `CMD_READ` transfers since the last `CMD_BEGIN` of a trace. -/
def readsSinceBegin (tr : List Event) : Nat := tr.foldl countReads 0

/-- R148 as a property of a state: in a session and after its completion, the `k`-th performed STEP is the
`(PRIME_XFERS + k)`-th `CMD_READ` transfer since START, and `ch` counts the performed STEPs modulo `CHANNELS`. -/
def ChannelCounts (s : State) : Prop :=
  (s.micro = .wait → s.phase = .sampling) ∧
    (s.phase ≠ .idle →
      ∃ k, readsSinceBegin s.trace = Config.hw.primeXfers + k ∧ s.ch.val = k % channels)

/-- The select level the trace has reached, and whether every transfer so far was made with the line asserted. -/
def followSelect (p : Bool × Bool) (e : Event) : Bool × Bool :=
  match e with
  | .select b => (b, p.2)
  | .xfer _ _ => (p.1, p.2 && p.1)
  | .ready _ => p
  | .now _ => p

/-- The trace replayed from a deasserted line. -/
def selectReplay (tr : List Event) : Bool × Bool := tr.foldl followSelect (false, true)

/-- R162: the core makes a transfer only while the line is asserted. A hardware reset drops the line with no event
(R190), so the trace's level may be 1 while `cs` is 0, never the other way round. -/
def TransfersSelected (s : State) : Prop :=
  (selectReplay s.trace).2 = true ∧
    (s.cs = true → (selectReplay s.trace).1 = true) ∧
    (s.phase = .sampling → s.cs = true) ∧
    (s.micro = .wait → s.phase = .sampling)

/-- ENQUEUE of a list of values, in order. -/
def enqueueAll {n : Nat} (b : Buffer n) (vs : List Sample) : Buffer n := vs.foldl Buffer.enqueue b

/-- The list form of ENQUEUE (R106). -/
def pushBounded (n : Nat) (l : List Sample) (v : Sample) : List Sample :=
  if l.length < n then l ++ [v] else l.drop 1 ++ [v]

/-- An operation on one buffer: BUF_INIT, or ENQUEUE of a value (R107: there is no other). -/
inductive BufferOp where
  /-- BUF_INIT. -/
  | init
  /-- ENQUEUE. -/
  | enqueue (v : Sample)
  deriving DecidableEq, Repr

/-- The normative form of one operation. -/
def applyOp {n : Nat} (b : Buffer n) (o : BufferOp) : Buffer n :=
  match o with
  | .init => b.init
  | .enqueue v => b.enqueue v

/-- The running-sum form of one operation (R109). -/
def applySumOp {n w : Nat} (b : SumBuffer n w) (o : BufferOp) : SumBuffer n w :=
  match o with
  | .init => b.init
  | .enqueue v => b.enqueue v

end Sys2Proof.Safety
end

