-- ==== Sys2Proof/Certificates/Slice0/Obligations.lean ====
section
/-! DEFINITION. The statements for the provers. Each docstring names the rule of spec/ it formalises. Where a statement
fixes an answer of the environment, it takes it from the state's own `env`, whatever that holds. -/

open Sys2Proof Sys2Proof.Machine Sys2Proof.Safety

/-! ## Encodings and the port -/

/-- R81: the eight command words decode to the eight commands. The last clause, that `decodeNumber` refuses every number
of 8 or more by name, is the model's choice (log 16, DESIGN CHOICE): R80 knows 3-bit words only and speaks of no larger
number. -/
def Obligations.OpcodeMapDecodesEightWords : Prop :=
  decodeTableWord 3 0 = some .reserved0 ∧ decodeTableWord 3 1 = some .init ∧
  decodeTableWord 3 2 = some .start ∧ decodeTableWord 3 3 = some .step ∧
  decodeTableWord 3 4 = some .poll ∧ decodeTableWord 3 5 = some .snap ∧
  decodeTableWord 3 6 = some .reserved6 ∧ decodeTableWord 3 7 = some .reserved7 ∧
  ∀ w, 8 ≤ w → decodeNumber w = .error .widerThanCommandWord

/-- R80, R81: decoding and encoding are inverse to each other; no bit of the command word is dropped. -/
def Obligations.CommandWordRoundTrip : Prop :=
  (∀ i : Instr, i.wellFormed = true → decode (encode i) = i) ∧ ∀ w : CmdOp, encode (decode w) = w

/-- R84: lane `k` of the payload is `{0b0000, avg[k]}`, the average zero-extended to 16 bits; lanes 16 and 17 are `ts`. -/
def Obligations.SnapshotPayloadLayout : Prop :=
  ∀ p : Snapshot,
    (∀ k : Fin channels, p.payload.extractLsb' (16 * k.val) 16 = (p.avg.get k).setWidth 16) ∧
    p.payload.extractLsb' 256 32 = p.ts

/-- R84: a host reads the record back from the wires. -/
def Obligations.SnapshotPayloadReadsBack : Prop :=
  ∀ p : Snapshot, unpackPayload p.payload = p

/-- R88, R131: a command presented while the core accepts commands is accepted, taken off the port, and executed as the
command its word decodes to. -/
def Obligations.AcceptedCommandRunsDecoded : Prop :=
  ∀ (s : State) (op : CmdOp) (rest : List PortInput), s.micro = .accepting → s.port = .command op :: rest →
    step s = exec (decode op) { s with port := rest }

/-- The model's choice (log 1) for a port on which no command is presented: nothing happens. -/
def Obligations.NothingPresentedNothingHappens : Prop :=
  ∀ s : State, s.micro = .accepting →
    (s.port = [] → step s = .next s) ∧
    ∀ rest, s.port = .idle :: rest → step s = .next { s with port := rest }

/-- R88, R135: while a STEP is held, a step of the machine polls for it again; a presented command is not accepted and
stays presented. -/
def Obligations.HeldStepKeepsPolling : Prop :=
  ∀ s : State, s.micro = .wait → s.phase = .sampling →
    (s.port = [] → step s = exec .step s) ∧
    (∀ op rest, s.port = .command op :: rest → step s = exec .step s) ∧
    ∀ rest, s.port = .idle :: rest → step s = exec .step { s with port := rest }

/-- R190: reset in any micro-state, a held STEP included. -/
def Obligations.ResetInputClearsCore : Prop :=
  ∀ (s : State) (rest : List PortInput), s.port = .reset :: rest →
    ∃ t, step s = .next t ∧
      (∀ c : Fin channels, (t.chan c).buffer.contents = [] ∧ (t.chan c).buffer.hd = 0 ∧ (t.chan c).buffer.tl = 0 ∧
        (t.chan c).buffer.cnt = 0 ∧ (t.chan c).avg = 0) ∧
      t.ts = 0 ∧ t.phase = .idle ∧ t.ch = 0 ∧ t.tStart = 0 ∧ t.cs = false ∧ t.micro = .accepting ∧
      t.trace = s.trace ∧ t.responses = s.responses ∧ t.env = s.env ∧ t.port = rest

/-- R47: the values the spec gives for reset (the slots, which it leaves open, are not among them). -/
def Obligations.ResetStateValues : Prop :=
  (∀ c : Fin channels, (State.reset.chan c).buffer.hd = 0 ∧ (State.reset.chan c).buffer.tl = 0 ∧
    (State.reset.chan c).buffer.cnt = 0 ∧ (State.reset.chan c).avg = 0) ∧
  State.reset.ts = 0 ∧ State.reset.phase = .idle ∧ State.reset.done = false ∧ State.reset.ch = 0 ∧
  State.reset.tStart = 0 ∧ State.reset.cs = false ∧ State.reset.micro = .accepting

/-! ## The commands: effect and frame, in every state -/

/-- R132: INIT, accepted in every phase. The clause that the slots are as before is the model's choice (log 4, DESIGN
CHOICE): R35 and R47 leave their value open, and R35 only permits that it is kept. -/
def Obligations.InitClearsBankAndSession : Prop :=
  ∀ s : State, ∃ t, exec .init s = .next t ∧
    (∀ c : Fin channels, (t.chan c).buffer.contents = [] ∧ (t.chan c).buffer.hd = 0 ∧ (t.chan c).buffer.tl = 0 ∧
      (t.chan c).buffer.cnt = 0 ∧ (t.chan c).buffer.slots = (s.chan c).buffer.slots ∧ (t.chan c).avg = 0) ∧
    t.ts = 0 ∧ t.phase = .idle ∧ t.ch = 0 ∧ t.tStart = 0 ∧ t.cs = false ∧ t.micro = .accepting ∧
    t.port = s.port ∧ t.env = s.env ∧
    t.trace = s.trace ++ [.select false] ∧
    t.responses = s.responses ++ [{ status := .ok, done := false, snap := none }]

/-- R133: START, the same in every phase; it writes nothing of the bank, and no transfer result reaches it. -/
def Obligations.StartOpensSession : Prop :=
  ∀ s : State, ∃ t, exec .start s = .next t ∧
    t.ch = 0 ∧ t.tStart = s.env.nowAnswer ∧ t.phase = .sampling ∧ t.cs = true ∧
    t.chans = s.chans ∧ t.ts = s.ts ∧ t.micro = .accepting ∧ t.port = s.port ∧
    t.env = s.env.afterNow.afterXfer.afterXfer ∧
    t.trace = s.trace ++ [.now s.env.nowAnswer, .select true, .xfer .begin s.env.afterNow.xferAnswer,
      .xfer .read s.env.afterNow.afterXfer.xferAnswer] ∧
    t.responses = s.responses ++ [{ status := .ok, done := false, snap := none }]

/-- R134, R136, R137, R139: a performed STEP that does not wrap. One sample into the active channel, one clock read. -/
def Obligations.StepRecordsOneSample : Prop :=
  ∀ s : State, s.phase = .sampling → s.env.readyAnswer = true → s.ch.val < 15 →
    let r := s.env.afterReady.xferAnswer
    let env2 := s.env.afterReady.afterXfer
    let due := 60000 ≤ (elapsedSince s.tStart env2.nowAnswer).toNat
    ∃ t, exec .step s = .next t ∧
      t.chan s.ch = (s.chan s.ch).record 14 (sampleOf r) ∧
      (∀ c : Fin channels, c ≠ s.ch → t.chan c = s.chan c) ∧
      t.ch.val = s.ch.val + 1 ∧ t.ts = s.ts ∧ t.tStart = s.tStart ∧
      t.phase = (if due then .complete else .sampling) ∧
      t.cs = (if due then false else s.cs) ∧
      t.micro = .accepting ∧ t.port = s.port ∧ t.env = env2.afterNow ∧
      t.trace = s.trace ++ [.ready true, .xfer .read r, .now env2.nowAnswer] ++
        (if due then [.select false] else []) ∧
      t.responses = s.responses ++ [{ status := .ok, done := decide due, snap := none }]

/-- R134, R138, R139: a performed STEP on the last channel. It wraps, stamps `ts` from a first clock read, and checks the
deadline with a second. -/
def Obligations.StepWrapStampsThenChecks : Prop :=
  ∀ s : State, s.phase = .sampling → s.env.readyAnswer = true → s.ch.val = 15 →
    let r := s.env.afterReady.xferAnswer
    let env2 := s.env.afterReady.afterXfer
    let env3 := env2.afterNow
    let due := 60000 ≤ (elapsedSince s.tStart env3.nowAnswer).toNat
    ∃ t, exec .step s = .next t ∧
      t.chan s.ch = (s.chan s.ch).record 14 (sampleOf r) ∧
      (∀ c : Fin channels, c ≠ s.ch → t.chan c = s.chan c) ∧
      t.ch = 0 ∧ t.ts = elapsedSince s.tStart env2.nowAnswer ∧ t.tStart = s.tStart ∧
      t.phase = (if due then .complete else .sampling) ∧
      t.cs = (if due then false else s.cs) ∧
      t.micro = .accepting ∧ t.port = s.port ∧ t.env = env3.afterNow ∧
      t.trace = s.trace ++ [.ready true, .xfer .read r, .now env2.nowAnswer, .now env3.nowAnswer] ++
        (if due then [.select false] else []) ∧
      t.responses = s.responses ++ [{ status := .ok, done := decide due, snap := none }]

/-- R61, R105, R31: of the whole sample store a performed STEP writes one slot, at address `ch*N + tl[ch]`, with the
masked transfer result; every other slot address reads as before. -/
def Obligations.StepWritesOneSlot : Prop :=
  ∀ s : State, s.phase = .sampling → s.env.readyAnswer = true → ∃ t, exec .step s = .next t ∧
    t.memRead (slotAddress s.ch (s.chan s.ch).buffer.tl) = sampleOf s.env.afterReady.xferAnswer ∧
    ∀ a, a ≠ slotAddress s.ch (s.chan s.ch).buffer.tl → t.memRead a = s.memRead a

/-- R135: a poll that answers 0 holds the STEP: the wait is entered or kept, nothing of R30 changes, no response. -/
def Obligations.StepHeldWhileNotReady : Prop :=
  ∀ s : State, s.phase = .sampling → s.env.readyAnswer = false →
    exec .step s = .next { s with
      micro := .wait, env := s.env.afterReady, trace := s.trace ++ [.ready false] }

/-- R143, R144: STEP in Idle and in Complete does nothing: no wait, no transfer, no state change; response IGNORED. -/
def Obligations.StepOutsideSamplingIgnored : Prop :=
  ∀ s : State,
    (s.phase = .idle → exec .step s = .next { s with
      micro := .accepting
      responses := s.responses ++ [{ status := .ignored, done := false, snap := none }] }) ∧
    (s.phase = .complete → exec .step s = .next { s with
      micro := .accepting
      responses := s.responses ++ [{ status := .ignored, done := true, snap := none }] })

/-- R140, R139: POLL in each phase. -/
def Obligations.PollChecksDeadline : Prop :=
  ∀ s : State,
    (s.phase = .idle → exec .poll s = .next { s with
      micro := .accepting
      responses := s.responses ++ [{ status := .ok, done := false, snap := none }] }) ∧
    (s.phase = .complete → exec .poll s = .next { s with
      micro := .accepting
      responses := s.responses ++ [{ status := .ok, done := true, snap := none }] }) ∧
    (s.phase = .sampling → (elapsedSince s.tStart s.env.nowAnswer).toNat < 60000 →
      exec .poll s = .next { s with
        micro := .accepting
        env := s.env.afterNow
        trace := s.trace ++ [.now s.env.nowAnswer]
        responses := s.responses ++ [{ status := .ok, done := false, snap := none }] }) ∧
    (s.phase = .sampling → 60000 ≤ (elapsedSince s.tStart s.env.nowAnswer).toNat →
      exec .poll s = .next { s with
        phase := .complete
        cs := false
        micro := .accepting
        env := s.env.afterNow
        trace := s.trace ++ [.now s.env.nowAnswer, .select false]
        responses := s.responses ++ [{ status := .ok, done := true, snap := none }] })

/-- R141, R123: SNAP changes nothing, and gives a snapshot in Complete only. -/
def Obligations.SnapGatedOnComplete : Prop :=
  ∀ s : State,
    (s.phase = .complete → ∃ p : Snapshot,
      (∀ c : Fin channels, p.avg.get c = (s.chan c).avg) ∧ p.ts = s.ts ∧
      exec .snap s = .next { s with
        micro := .accepting
        responses := s.responses ++ [{ status := .ok, done := true, snap := some p }] }) ∧
    (s.phase ≠ .complete → exec .snap s = .next { s with
      micro := .accepting
      responses := s.responses ++ [{ status := .notReady, done := false, snap := none }] })

/-- R142: reserved opcodes 0, 6, 7 in every phase: no state change, no adapter call. -/
def Obligations.ReservedOpcodesIllegal : Prop :=
  ∀ (i : Instr) (s : State), i = .reserved0 ∨ i = .reserved6 ∨ i = .reserved7 →
    exec i s = .next { s with
      micro := .accepting
      responses := s.responses ++
        [{ status := .illegal, done := decide (s.phase = .complete), snap := none }] }

/-! ## Shared operations, over every parameter setting -/

/-- R133, R5: for every `PRIME_XFERS`, START makes one begin transfer and then exactly that many read transfers, after
one clock read and the assertion of the select line; nothing of the bank changes. -/
def Obligations.StartTransfersForEveryPrimeCount : Prop :=
  ∀ (cfg : Config) (s : State), ∃ rs : List XferBits, rs.length = cfg.primeXfers ∧
    (s.startSession cfg).trace =
      s.trace ++ [.now s.env.nowAnswer, .select true, .xfer .begin s.env.afterNow.xferAnswer] ++
        rs.map (Event.xfer .read) ∧
    (s.startSession cfg).phase = .sampling ∧ (s.startSession cfg).ch = 0 ∧
    (s.startSession cfg).tStart = s.env.nowAnswer ∧ (s.startSession cfg).cs = true ∧
    (s.startSession cfg).chans = s.chans ∧ (s.startSession cfg).ts = s.ts ∧
    (s.startSession cfg).responses = s.responses

/-- R139, R151: for every window, the check completes the session exactly when the elapsed time has reached it; outside
Sampling it does nothing. -/
def Obligations.DeadlineCheckForEveryWindow : Prop :=
  ∀ (cfg : Config) (s : State),
    (s.phase ≠ .sampling → s.deadlineCheck cfg = s) ∧
    (s.phase = .sampling → cfg.windowMs ≤ (elapsedSince s.tStart s.env.nowAnswer).toNat →
      s.deadlineCheck cfg = { s with
        phase := .complete, cs := false, env := s.env.afterNow
        trace := s.trace ++ [.now s.env.nowAnswer, .select false] }) ∧
    (s.phase = .sampling → (elapsedSince s.tStart s.env.nowAnswer).toNat < cfg.windowMs →
      s.deadlineCheck cfg = { s with
        env := s.env.afterNow, trace := s.trace ++ [.now s.env.nowAnswer] })

/-- R136: `v = r mod 4096`; bits 15:12 take no part in anything. -/
def Obligations.SampleIsLowTwelveBits : Prop :=
  ∀ r : XferBits, (sampleOf r).toNat = r.toNat % 4096 ∧
    ∀ q : XferBits, r.toNat % 4096 = q.toNat % 4096 → sampleOf r = sampleOf q

/-- R150: with a clock that counts true milliseconds modulo `2^32`, Elapsed is the true elapsed time below `2^32`. -/
def Obligations.ElapsedIsTrueTimeBelowWrap : Prop :=
  ∀ (s : State) (start now : Nat), start ≤ now → now - start < 2 ^ 32 →
    s.tStart = BitVec.ofNat 32 start → s.env.nowAnswer = BitVec.ofNat 32 now →
    s.elapsed.toNat = now - start

/-! ## The Bounded Averaging Buffer, for every capacity -/

/-- R106: the laws at the level of contents, and what follows from them, for every capacity `n` and every accumulator
width `w` that R6 admits. -/
def Obligations.BufferContentsLaws : Prop :=
  ∀ (n w : Nat) (b : Buffer n), n * 4095 < 2 ^ w → BufferWf b →
    b.init.contents = [] ∧
    (∀ v, b.contents.length < n → (b.enqueue v).contents = b.contents ++ [v]) ∧
    (∀ v, b.contents.length = n → (b.enqueue v).contents = b.contents.drop 1 ++ [v]) ∧
    (b.average w).toNat = mean b.contents ∧
    (∀ v, (b.enqueue v).contents.length ≤ n) ∧
    BufferWf b.init ∧ ∀ v, BufferWf (b.enqueue v)

/-- R106, BPST §8: enqueuing any list of values into an empty buffer leaves exactly the last `N` of them in order, and
the average is their truncated mean. -/
def Obligations.LastCapacityValuesKept : Prop :=
  ∀ (n w : Nat) (b : Buffer n) (vs : List Sample), n * 4095 < 2 ^ w →
    (enqueueAll b.init vs).contents = vs.drop (vs.length - n) ∧
    ((enqueueAll b.init vs).average w).toNat = mean (vs.drop (vs.length - n))

/-- R104, R6: an accumulator of any width that R6 admits never wraps, so the division sees the exact sum; the average
lies between the least and the greatest held element. The width `ACC_BITS` of R5 is one that R6 admits. -/
def Obligations.AccumulatorExactAndMeanBounded : Prop :=
  (∀ n : Nat, n * 4095 < 2 ^ accBits n) ∧
  ∀ (n w : Nat) (b : Buffer n), n * 4095 < 2 ^ w →
    (b.accumulate w).toNat = (b.contents.map BitVec.toNat).sum ∧
    (∀ lo, b.contents ≠ [] → (∀ v ∈ b.contents, lo ≤ v.toNat) → lo ≤ (b.average w).toNat) ∧
    (∀ hi, (∀ v ∈ b.contents, v.toNat ≤ hi) → (b.average w).toNat ≤ hi)

/-- R103: AVERAGE is 0 on the empty buffer, else the sum of the held elements divided by their number, rounded down. -/
def Obligations.AverageIsTruncatedMean : Prop :=
  ∀ (n w : Nat) (b : Buffer n), n * 4095 < 2 ^ w →
    (b.contents = [] → b.average w = 0) ∧
    (b.contents ≠ [] → (b.average w).toNat = (b.contents.map BitVec.toNat).sum / b.contents.length)

/-- R108, R121: RECORD writes the buffer and the average of its own channel, and nothing else; with any parameter
setting whose accumulator R6 admits. -/
def Obligations.RecordTouchesOneChannel : Prop :=
  ∀ (cfg : Config) (s : State) (c : Fin channels) (v : Sample), capacity * 4095 < 2 ^ cfg.accBits →
    BufferWf (s.chan c).buffer →
    ((s.record cfg c v).chan c).buffer.contents = pushBounded capacity (s.chan c).buffer.contents v ∧
    ((s.record cfg c v).chan c).avg.toNat = mean ((s.record cfg c v).chan c).buffer.contents ∧
    (∀ d : Fin channels, d ≠ c → (s.record cfg c v).chan d = s.chan d) ∧
    s.record cfg c v = { s with chans := (s.record cfg c v).chans }

/-- R109: the running-sum form returns the same average as the normative form after any sequence of operations. -/
def Obligations.RunningSumRefinesBuffer : Prop :=
  ∀ (n w : Nat) (b : SumBuffer n w) (ops : List BufferOp), n * 4095 < 2 ^ w →
    let after := ops.foldl applySumOp b.init
    after.buffer = ops.foldl applyOp b.buffer.init ∧
    after.average = after.buffer.average w ∧
    after.sum.toNat = (after.buffer.contents.map BitVec.toNat).sum

/-! ## The whole machine -/

/-- R46: every step keeps the six invariants. -/
def Obligations.StepKeepsInvariants : Prop :=
  ∀ s t : State, StateInv s → step s = .next t → StateInv t

/-- R46, R47: the state after reset meets them. -/
def Obligations.ResetMeetsInvariants : Prop := StateInv State.reset

/-- R46: in every state reached from reset, by any commands and resets presented and any answers of the environment, the
six invariants hold. -/
def Obligations.ReachableStatesMeetInvariants : Prop :=
  ∀ (port : List PortInput) (env : Env) (k : Nat) (t : State),
    runFor k { State.reset with port := port, env := env } = .next t → StateInv t

/-- R34, R35: the layout of a buffer (slots not held, where the pointers stand) is unobservable: two states that differ
in nothing else step alike, with equal traces and responses. -/
def Obligations.BufferLayoutUnobservable : Prop :=
  ∀ s t : State, (∀ c : Fin channels, BufferWf (s.chan c).buffer) → (∀ c : Fin channels, BufferWf (t.chan c).buffer) →
    SameVisible s t →
    ∃ s' t', step s = .next s' ∧ step t = .next t' ∧ SameVisible s' t'

/-- R146: in Complete, whatever is presented but `RST`, INIT or START leaves the phase, the bank and the transport
alone. -/
def Obligations.CompletionIsMonotonic : Prop :=
  ∀ s : State, s.phase = .complete → s.micro = .accepting →
    (∀ rest, s.port ≠ .reset :: rest) →
    (∀ op rest, s.port = .command op :: rest → decode op ≠ .init ∧ decode op ≠ .start) →
    ∃ t, step s = .next t ∧ SameCore s t ∧ t.done = true ∧ t.trace = s.trace ∧ t.env = s.env

/-- R39, R139, R149: only a deadline check that found the window elapsed completes a session, and it deasserts the line. -/
def Obligations.OnlyDeadlineCompletes : Prop :=
  ∀ s t : State, s.phase ≠ .complete → step s = .next t → t.phase = .complete →
    t.cs = false ∧ ∃ (pre : List Event) (now : Time),
      t.trace = pre ++ [.now now, .select false] ∧ 60000 ≤ (elapsedSince t.tStart now).toNat ∧
      t.tStart = s.tStart

/-- R124: the bank is written only by a performed STEP, by INIT and by reset. -/
def Obligations.BankWrittenOnlyByStepInitReset : Prop :=
  ∀ s t : State, (s.micro = .wait → s.phase = .sampling) → step s = .next t → (t.chans ≠ s.chans ∨ t.ts ≠ s.ts) →
    (∃ rest, s.port = .reset :: rest) ∨
    (s.micro = .accepting ∧ ∃ rest, s.port = .command 1 :: rest) ∨
    (s.phase = .sampling ∧ s.env.readyAnswer = true ∧
      (s.micro = .wait ∨ ∃ rest, s.port = .command 3 :: rest))

/-- R147: over `k <= 16` performed STEPs that begin at channel 0, the channels `0 .. k-1` get one RECORD each, in
ascending order of the transfer results, no other channel changes, `ts` does not change before the 16th, and the 16th
brings the index back to 0 and stamps `ts` from the first clock read after its transfer. -/
def Obligations.RoundRobinCycle : Prop :=
  ∀ (k : Nat) (s t : State), PerformedSteps k s t → s.ch = 0 → k ≤ 16 →
    ∃ (es : List Event) (rs : List XferBits), t.trace = s.trace ++ es ∧ readResults es = rs ∧ rs.length = k ∧
      (∀ (c : Fin channels) (h : c.val < rs.length), t.chan c = (s.chan c).record 14 (sampleOf rs[c.val])) ∧
      (∀ c : Fin channels, k ≤ c.val → t.chan c = s.chan c) ∧
      t.ch.val = k % 16 ∧ t.tStart = s.tStart ∧
      (k < 16 → t.ts = s.ts) ∧
      (k = 16 → ∃ (pre post : List Event) (r : XferBits) (now : Time),
        es = pre ++ [.xfer .read r, .now now] ++ post ∧ readResults post = [] ∧ t.ts = elapsedSince s.tStart now)

/-- R148: every step keeps `ch` in step with the count of transfers since START. -/
def Obligations.StepKeepsChannelCount : Prop :=
  ∀ s t : State, ChannelCounts s → step s = .next t → ChannelCounts t

/-- R148: the state after reset meets it. -/
def Obligations.ResetMeetsChannelCount : Prop := ChannelCounts State.reset

/-- R162: every step keeps that transfers are made only while the select line is asserted. -/
def Obligations.StepKeepsTransfersSelected : Prop :=
  ∀ s t : State, TransfersSelected s → step s = .next t → TransfersSelected t

/-- R162: the state after reset meets it. -/
def Obligations.ResetMeetsTransfersSelected : Prop := TransfersSelected State.reset

/-- R173: while `Ready()` answers 0 and `RST` is not asserted, a held STEP changes nothing of R30 and gives no response,
whatever is presented and however long it lasts. The port gives its leading idle entries, one at each poll (log 1); a
presented command stays (R88), and with it all that is listed behind it (log 18, DESIGN CHOICE). -/
def Obligations.HangChangesNothing : Prop :=
  ∀ (k : Nat) (s : State), s.micro = .wait → s.phase = .sampling → PortInput.reset ∉ s.port → ReadyLowFor k s.env →
    ∃ t, runFor k s = .next t ∧ SameCore s t ∧ t.micro = .wait ∧ t.responses = s.responses ∧
      t.trace = s.trace ++ List.replicate k (.ready false) ∧ t.port = portAfterPolls k s.port

/-- R135, R165: a held STEP responds once `Ready()` answers 1, after any number `k` of polls that answered 0; the outcome
is that of a STEP that finds it at once, in the same state but for the polls' answers and events and for the leading
idle entries that the port has given, one at each poll. That one step of the machine is one poll is log 5 (DEDUCED); that
a step takes one idle entry is log 1; a presented command is not consumed (R88). -/
def Obligations.ReadyLiftsTheHold : Prop :=
  ∀ (k : Nat) (s : State), s.micro = .wait → s.phase = .sampling → PortInput.reset ∉ s.port → ReadyLowFor k s.env →
    (Env.afterReady^[k] s.env).readyAnswer = true →
    ∃ t : State,
      runFor (k + 1) s = exec .step { s with
        port := portAfterPolls (k + 1) s.port
        env := Env.afterReady^[k] s.env
        trace := s.trace ++ List.replicate k (.ready false) } ∧
      runFor (k + 1) s = .next t ∧ t.micro = .accepting ∧
      t.responses = s.responses ++ [{ status := .ok, done := t.done, snap := none }]

/-- R11, R83: a step gives at most one response; `RSP_DONE` is the flag after every effect, and a snapshot comes only
with an OK response in Complete. -/
def Obligations.ResponseCarriesFinalFlag : Prop :=
  ∀ s t : State, step s = .next t →
    t.responses = s.responses ∨
    ∃ r, t.responses = s.responses ++ [r] ∧ t.micro = .accepting ∧ r.done = t.done ∧
      (∀ p, r.snap = some p → r.status = .ok ∧ t.phase = .complete ∧ p.ts = t.ts ∧
        ∀ c : Fin channels, p.avg.get c = (t.chan c).avg) ∧
      (r.status = .notReady → t.phase ≠ .complete)

/-- R36, R141: in a state that meets the invariants, SNAP's record holds the truncated mean of every buffer's contents. -/
def Obligations.SnapshotHoldsMeans : Prop :=
  ∀ s : State, StateInv s → s.phase = .complete → ∃ t p, exec .snap s = .next t ∧
    t.responses = s.responses ++ [{ status := .ok, done := true, snap := some p }] ∧
    (∀ c : Fin channels, (p.avg.get c).toNat = mean (s.chan c).buffer.contents) ∧ p.ts = s.ts

/-- R191: the effect of reset and of INIT on the state of R30 is identical; INIT alone leaves an event and a response. -/
def Obligations.ResetAndInitAgreeOnCore : Prop :=
  ∀ (s : State) (rest : List PortInput), s.port = .reset :: rest → ∃ a b,
    step s = .next a ∧ exec .init s = .next b ∧ SameCore a b ∧ a.micro = b.micro ∧
    a.trace = s.trace ∧ b.trace = s.trace ++ [.select false] ∧
    a.responses = s.responses ∧ b.responses = s.responses ++ [{ status := .ok, done := false, snap := none }]

/-- R201: a STEP that finds the phase Sampling after the window has elapsed still takes one sample, and then completes. -/
def Obligations.SampleTakenAfterDeadline : Prop :=
  ∀ s : State, s.phase = .sampling → s.env.readyAnswer = true →
    60000 ≤ (elapsedSince s.tStart s.env.afterReady.afterXfer.nowAnswer).toNat →
    60000 ≤ (elapsedSince s.tStart s.env.afterReady.afterXfer.afterNow.nowAnswer).toNat →
    ∃ t, exec .step s = .next t ∧ t.phase = .complete ∧ t.cs = false ∧
      t.chan s.ch = (s.chan s.ch).record 14 (sampleOf s.env.afterReady.xferAnswer)

/-- R140, BPST §8: START, then a POLL: complete exactly when 60000 ms or more have elapsed since START's clock read. -/
def Obligations.PollAfterStartCompletesAtWindow : Prop :=
  ∀ s : State, ∃ t u, exec .start s = .next t ∧ exec .poll t = .next u ∧
    (u.done = true ↔ 60000 ≤ (elapsedSince s.env.nowAnswer s.env.afterNow.afterXfer.afterXfer.nowAnswer).toNat)

/-- R193: before the first START, STEP, POLL and SNAP change nothing of the core and touch no transport. -/
def Obligations.MisorderedBootHarmless : Prop :=
  ∀ (i : Instr) (s : State), i = .step ∨ i = .poll ∨ i = .snap → s.phase = .idle →
    ∃ t r, exec i s = .next t ∧ SameCore s t ∧ t.trace = s.trace ∧ t.env = s.env ∧ t.port = s.port ∧
      t.responses = s.responses ++ [r] ∧ r.done = false ∧ r.snap = none ∧
      r.status = (match i with | .step => .ignored | .poll => .ok | _ => .notReady)

/-- R6: this hardware's parameter setting is legal, whatever the two OPEN command words are. -/
def Obligations.HardwareParametersLegal : Prop :=
  Config.hw.Legal ∧ ∀ b r : XferBits, ({ Config.hw with cmdBegin := b.toNat, cmdRead := r.toNat } : Config).Legal

/-- R5: the parameters of this hardware, with R5's formulas for the derived ones, and R30's total of 1143 bits of state.
The two OPEN words have no value here (log 8). -/
def Obligations.ParametersAsStated : Prop :=
  Config.hw.channels = 16 ∧ Config.hw.capacity = 4 ∧ Config.hw.sampleBits = 12 ∧ Config.hw.sampleMax = 4095 ∧
  Config.hw.xferBits = 16 ∧ Config.hw.timeBits = 32 ∧ Config.hw.windowMs = 60000 ∧ Config.hw.accBits = 14 ∧
  Config.hw.ptrBits = 2 ∧ Config.hw.cntBits = 3 ∧ Config.hw.chBits = 4 ∧ Config.hw.primeXfers = 1 ∧
  Config.hw.DerivedAsStated ∧ Config.hw.stateBits = 1143

/-- R5, R30: `PTR_BITS`, `CNT_BITS` and `CH_BITS` are wide enough for every capacity: no pointer, count or channel index
is cut off in its register. -/
def Obligations.RegisterCodesLoseNothing : Prop :=
  (∀ (n : Nat) (b : Buffer n), b.hdCode.toNat = b.hd.val ∧ b.tlCode.toNat = b.tl.val ∧ b.cntCode.toNat = b.cnt.val) ∧
  ∀ s : State, s.chCode.toNat = s.ch.val

/-- R70, R166 for the trace, R11 for the responses: what has been recorded stays recorded, a step only appends. That
every step ends in a next state is log 10 (DEDUCED from R170 and R177: the block raises no exception, and there is no
fault to stop in). -/
def Obligations.RecordsOnlyGrow : Prop :=
  ∀ s : State, ∃ t, step s = .next t ∧ (∃ es, t.trace = s.trace ++ es) ∧ ∃ rs, t.responses = s.responses ++ rs
end

