-- ==== Sys2Proof/Laws/Buffer.lean ====
section
/-! SUPPORT. The buffer's operations field by field, and its contents as a list with indices. -/

namespace Sys2Proof.Machine

variable {n : Nat} (b : Buffer n)

@[simp] theorem Buffer.contents_length : b.contents.length = b.cnt.val := by
  simp [Buffer.contents]

/-- The `k`-th element of the contents is the slot `(hd + k) mod n` (R34). -/
theorem Buffer.contents_getElem (k : Nat) (h : k < b.contents.length) :
    b.contents[k] = b.slots.get (b.slotIndex k) := by
  simp [Buffer.contents, Buffer.held]

theorem Buffer.contents_eq_nil_iff : b.contents = [] ↔ b.cnt.val = 0 := by
  rw [← List.length_eq_zero_iff, Buffer.contents_length]

@[simp] theorem nextIndex_val (p : Fin n) : (nextIndex p).val = (p.val + 1) % n := rfl

@[simp] theorem Buffer.slotIndex_val (k : Nat) : (b.slotIndex k).val = (b.hd.val + k) % n := rfl

@[simp] theorem Buffer.init_slots : b.init.slots = b.slots := rfl
@[simp] theorem Buffer.init_hd_val : b.init.hd.val = 0 := rfl
@[simp] theorem Buffer.init_tl_val : b.init.tl.val = 0 := rfl
@[simp] theorem Buffer.init_cnt_val : b.init.cnt.val = 0 := rfl

/-- Below capacity ENQUEUE is the tail store alone (R101). -/
theorem Buffer.enqueue_below (v : Sample) (h : b.cnt.val < n) : b.enqueue v = b.appendTail h v := by
  simp [Buffer.enqueue, Nat.ne_of_lt h]

/-- At capacity ENQUEUE drops the oldest, then stores at the tail; the count stays `n` (R101, R102). -/
theorem Buffer.enqueue_full (v : Sample) (h : b.cnt.val = n) :
    (b.enqueue v).hd = nextIndex b.hd ∧ (b.enqueue v).cnt.val = n := by
  have := b.hd.pos
  simp only [Buffer.enqueue, h, dite_true, Buffer.appendTail, Buffer.evict, true_and]
  omega

/-- Whichever case holds, ENQUEUE writes one slot, at the tail, and advances the tail (R101, R105). -/
theorem Buffer.enqueue_slots_tl (v : Sample) :
    (b.enqueue v).slots = b.slots.set b.tl.val v b.tl.isLt ∧ (b.enqueue v).tl = nextIndex b.tl := by
  unfold Buffer.enqueue
  split <;> simp [Buffer.appendTail, Buffer.evict]

/-- Below capacity the head stays and the count grows by one (R101). -/
theorem Buffer.enqueue_hd_cnt (v : Sample) (h : b.cnt.val < n) :
    (b.enqueue v).hd = b.hd ∧ (b.enqueue v).cnt.val = b.cnt.val + 1 := by
  simp [Buffer.enqueue_below b v h, Buffer.appendTail]

@[simp] theorem Channel.init_avg (c : Channel n) : c.init.avg = 0 := rfl
@[simp] theorem Channel.init_buffer (c : Channel n) : c.init.buffer = c.buffer.init := rfl
@[simp] theorem Channel.record_buffer (w : Nat) (c : Channel n) (v : Sample) :
    (c.record w v).buffer = c.buffer.enqueue v := rfl
@[simp] theorem Channel.record_avg (w : Nat) (c : Channel n) (v : Sample) :
    (c.record w v).avg = (c.buffer.enqueue v).average w := rfl

end Sys2Proof.Machine
end

