-- ==== Sys2Proof/Laws/Config.lean ====
section
/-! SUPPORT. The widths of this hardware as numbers, and what `ceil(log2)` gives: enough bits. -/

namespace Sys2Proof

theorem sample_toNat_lt (v : Sample) : v.toNat < 4096 := v.isLt

theorem sample_toNat_le (v : Sample) : v.toNat ≤ 4095 := Nat.le_of_lt_succ v.isLt

theorem xferBits_toNat_lt (r : XferBits) : r.toNat < 65536 := r.isLt

theorem time_toNat_lt (t : Time) : t.toNat < 4294967296 := t.isLt

/-- `2^ceil(log2(k)) >= k` (R8). -/
theorem le_two_pow_ceilLog2 (k : Nat) : k ≤ 2 ^ ceilLog2 k := by
  unfold ceilLog2
  split
  · simpa using ‹k ≤ 1›
  · have : k - 1 < 2 ^ (Nat.log2 (k - 1) + 1) := Nat.lt_log2_self
    omega

/-- An accumulator that R6 admits is at least as wide as a sample, where there is a slot to hold one. -/
theorem sampleBits_le_of_admitted {n w : Nat} (hn : 0 < n) (h : n * 4095 < 2 ^ w) : Config.hw.sampleBits ≤ w := by
  by_contra hc
  have hw : w ≤ 11 := Nat.le_of_lt_succ (Nat.lt_of_not_le hc)
  have : 2 ^ w ≤ 2 ^ 11 := Nat.pow_le_pow_right (by omega) hw
  omega

end Sys2Proof
end

