-- ==== Sys2Proof/Laws/Operands.lean ====
section
/-! SUPPORT. The packing of 16-bit lanes into one number (30_encoding.md R84): its bound, and that any lane is read back.
Stated for a width `w` that stays a variable, so that no proof computes a power as large as `2 ^ 288`. -/

namespace Sys2Proof.Machine

@[simp] theorem packLanes_nil : packLanes [] = 0 := rfl

@[simp] theorem packLanes_cons (x : BitVec 16) (l : List (BitVec 16)) :
    packLanes (x :: l) = x.toNat + 65536 * packLanes l := rfl

theorem packLanes_lt (l : List (BitVec 16)) : packLanes l < 2 ^ (16 * l.length) := by
  induction l with
  | nil => simp
  | cons x l ih =>
    have hx : x.toNat < 65536 := x.isLt
    have : 2 ^ (16 * (x :: l).length) = 65536 * 2 ^ (16 * l.length) := by
      rw [List.length_cons, Nat.mul_add, Nat.pow_add]; ring
    rw [this, packLanes_cons]
    omega

/-- Lane `k` of the packed number. -/
theorem packLanes_lane (l : List (BitVec 16)) (k : Nat) (h : k < l.length) :
    packLanes l / 2 ^ (16 * k) % 65536 = l[k].toNat := by
  induction l generalizing k with
  | nil => simp at h
  | cons x l ih =>
    have hx : x.toNat < 65536 := x.isLt
    cases k with
    | zero => simp; omega
    | succ k =>
      have e : 2 ^ (16 * (k + 1)) = 65536 * 2 ^ (16 * k) := by rw [Nat.mul_add, Nat.pow_add]; ring
      rw [packLanes_cons, e, ← Nat.div_div_eq_div_mul]
      have : (x.toNat + 65536 * packLanes l) / 65536 = packLanes l := by omega
      rw [this]
      simpa using ih k (by simpa using h)

/-- Sixteen wires from `16k` up carry lane `k`, for any width that holds all lanes. -/
theorem extract_packLanes (w : Nat) (l : List (BitVec 16)) (h : packLanes l < 2 ^ w) (k : Nat) (hk : k < l.length) :
    (BitVec.ofNat w (packLanes l)).extractLsb' (16 * k) 16 = l[k] := by
  apply BitVec.eq_of_toNat_eq
  rw [BitVec.extractLsb'_toNat, BitVec.toNat_ofNat, Nat.mod_eq_of_lt h, Nat.shiftRight_eq_div_pow]
  exact packLanes_lane l k hk

end Sys2Proof.Machine
end

