-- ==== Sys2Proof/Laws/PerInstr.lean ====
section
/-! SUPPORT. Family `Encoding`: what holds of every command as syntax, one lemma per constructor. -/

namespace Sys2Proof.Laws.Encoding

/-- The command is well formed, and its own word, read as spec/opcode_table.json reads it, decodes to it (R81). -/
def Statement (i : Instr) : Prop :=
  i.wellFormed = true ∧ decodeTableWord 3 (encode i).toNat = some i

theorem reserved0 : Statement .reserved0 := by unfold Statement; decide
theorem init : Statement .init := by unfold Statement; decide
theorem start : Statement .start := by unfold Statement; decide
theorem step : Statement .step := by unfold Statement; decide
theorem poll : Statement .poll := by unfold Statement; decide
theorem snap : Statement .snap := by unfold Statement; decide
theorem reserved6 : Statement .reserved6 := by unfold Statement; decide
theorem reserved7 : Statement .reserved7 := by unfold Statement; decide

end Sys2Proof.Laws.Encoding
end

