-- ==== Sys2Proof/Laws/State.lean ====
section
/-! SUPPORT. One lemma per field per update, so that no later proof unfolds a record update; and what each update leaves
of a channel. -/

namespace Sys2Proof.Machine

variable (s : State)

/-! ### select -/

@[simp] theorem State.select_chans (b : Bool) : (s.select b).chans = s.chans := rfl
@[simp] theorem State.select_ts (b : Bool) : (s.select b).ts = s.ts := rfl
@[simp] theorem State.select_phase (b : Bool) : (s.select b).phase = s.phase := rfl
@[simp] theorem State.select_ch (b : Bool) : (s.select b).ch = s.ch := rfl
@[simp] theorem State.select_tStart (b : Bool) : (s.select b).tStart = s.tStart := rfl
@[simp] theorem State.select_cs (b : Bool) : (s.select b).cs = b := rfl
@[simp] theorem State.select_micro (b : Bool) : (s.select b).micro = s.micro := rfl
@[simp] theorem State.select_port (b : Bool) : (s.select b).port = s.port := rfl
@[simp] theorem State.select_env (b : Bool) : (s.select b).env = s.env := rfl
@[simp] theorem State.select_trace (b : Bool) : (s.select b).trace = s.trace ++ [.select b] := rfl
@[simp] theorem State.select_responses (b : Bool) : (s.select b).responses = s.responses := rfl
@[simp] theorem State.select_chan (b : Bool) (d : Fin channels) : (s.select b).chan d = s.chan d := rfl

/-! ### xfer16 -/

@[simp] theorem State.xfer16_chans (w : XferWord) : (s.xfer16 w).chans = s.chans := rfl
@[simp] theorem State.xfer16_ts (w : XferWord) : (s.xfer16 w).ts = s.ts := rfl
@[simp] theorem State.xfer16_phase (w : XferWord) : (s.xfer16 w).phase = s.phase := rfl
@[simp] theorem State.xfer16_ch (w : XferWord) : (s.xfer16 w).ch = s.ch := rfl
@[simp] theorem State.xfer16_tStart (w : XferWord) : (s.xfer16 w).tStart = s.tStart := rfl
@[simp] theorem State.xfer16_cs (w : XferWord) : (s.xfer16 w).cs = s.cs := rfl
@[simp] theorem State.xfer16_micro (w : XferWord) : (s.xfer16 w).micro = s.micro := rfl
@[simp] theorem State.xfer16_port (w : XferWord) : (s.xfer16 w).port = s.port := rfl
@[simp] theorem State.xfer16_env (w : XferWord) : (s.xfer16 w).env = s.env.afterXfer := rfl
@[simp] theorem State.xfer16_trace (w : XferWord) : (s.xfer16 w).trace = s.trace ++ [.xfer w s.env.xferAnswer] := rfl
@[simp] theorem State.xfer16_responses (w : XferWord) : (s.xfer16 w).responses = s.responses := rfl
@[simp] theorem State.xfer16_chan (w : XferWord) (d : Fin channels) : (s.xfer16 w).chan d = s.chan d := rfl

/-! ### pollReady -/

@[simp] theorem State.pollReady_chans : (s.pollReady).chans = s.chans := rfl
@[simp] theorem State.pollReady_ts : (s.pollReady).ts = s.ts := rfl
@[simp] theorem State.pollReady_phase : (s.pollReady).phase = s.phase := rfl
@[simp] theorem State.pollReady_ch : (s.pollReady).ch = s.ch := rfl
@[simp] theorem State.pollReady_tStart : (s.pollReady).tStart = s.tStart := rfl
@[simp] theorem State.pollReady_cs : (s.pollReady).cs = s.cs := rfl
@[simp] theorem State.pollReady_micro : (s.pollReady).micro = s.micro := rfl
@[simp] theorem State.pollReady_port : (s.pollReady).port = s.port := rfl
@[simp] theorem State.pollReady_env : (s.pollReady).env = s.env.afterReady := rfl
@[simp] theorem State.pollReady_trace : (s.pollReady).trace = s.trace ++ [.ready s.env.readyAnswer] := rfl
@[simp] theorem State.pollReady_responses : (s.pollReady).responses = s.responses := rfl
@[simp] theorem State.pollReady_chan (d : Fin channels) : (s.pollReady).chan d = s.chan d := rfl

/-! ### readClock -/

@[simp] theorem State.readClock_chans : (s.readClock).chans = s.chans := rfl
@[simp] theorem State.readClock_ts : (s.readClock).ts = s.ts := rfl
@[simp] theorem State.readClock_phase : (s.readClock).phase = s.phase := rfl
@[simp] theorem State.readClock_ch : (s.readClock).ch = s.ch := rfl
@[simp] theorem State.readClock_tStart : (s.readClock).tStart = s.tStart := rfl
@[simp] theorem State.readClock_cs : (s.readClock).cs = s.cs := rfl
@[simp] theorem State.readClock_micro : (s.readClock).micro = s.micro := rfl
@[simp] theorem State.readClock_port : (s.readClock).port = s.port := rfl
@[simp] theorem State.readClock_env : (s.readClock).env = s.env.afterNow := rfl
@[simp] theorem State.readClock_trace : (s.readClock).trace = s.trace ++ [.now s.env.nowAnswer] := rfl
@[simp] theorem State.readClock_responses : (s.readClock).responses = s.responses := rfl
@[simp] theorem State.readClock_chan (d : Fin channels) : (s.readClock).chan d = s.chan d := rfl

/-! ### bankInit -/

@[simp] theorem State.bankInit_chans : (s.bankInit).chans = Vector.ofFn fun c : Fin channels => (s.chan c).init := rfl
@[simp] theorem State.bankInit_ts : (s.bankInit).ts = 0 := rfl
@[simp] theorem State.bankInit_phase : (s.bankInit).phase = s.phase := rfl
@[simp] theorem State.bankInit_ch : (s.bankInit).ch = s.ch := rfl
@[simp] theorem State.bankInit_tStart : (s.bankInit).tStart = s.tStart := rfl
@[simp] theorem State.bankInit_cs : (s.bankInit).cs = s.cs := rfl
@[simp] theorem State.bankInit_micro : (s.bankInit).micro = s.micro := rfl
@[simp] theorem State.bankInit_port : (s.bankInit).port = s.port := rfl
@[simp] theorem State.bankInit_env : (s.bankInit).env = s.env := rfl
@[simp] theorem State.bankInit_trace : (s.bankInit).trace = s.trace := rfl
@[simp] theorem State.bankInit_responses : (s.bankInit).responses = s.responses := rfl

/-! ### record -/

@[simp] theorem State.record_chans (cfg : Config) (c : Fin channels) (v : Sample) : (s.record cfg c v).chans = s.chans.set c.val ((s.chan c).record cfg.accBits v) c.isLt := rfl
@[simp] theorem State.record_ts (cfg : Config) (c : Fin channels) (v : Sample) : (s.record cfg c v).ts = s.ts := rfl
@[simp] theorem State.record_phase (cfg : Config) (c : Fin channels) (v : Sample) : (s.record cfg c v).phase = s.phase := rfl
@[simp] theorem State.record_ch (cfg : Config) (c : Fin channels) (v : Sample) : (s.record cfg c v).ch = s.ch := rfl
@[simp] theorem State.record_tStart (cfg : Config) (c : Fin channels) (v : Sample) : (s.record cfg c v).tStart = s.tStart := rfl
@[simp] theorem State.record_cs (cfg : Config) (c : Fin channels) (v : Sample) : (s.record cfg c v).cs = s.cs := rfl
@[simp] theorem State.record_micro (cfg : Config) (c : Fin channels) (v : Sample) : (s.record cfg c v).micro = s.micro := rfl
@[simp] theorem State.record_port (cfg : Config) (c : Fin channels) (v : Sample) : (s.record cfg c v).port = s.port := rfl
@[simp] theorem State.record_env (cfg : Config) (c : Fin channels) (v : Sample) : (s.record cfg c v).env = s.env := rfl
@[simp] theorem State.record_trace (cfg : Config) (c : Fin channels) (v : Sample) : (s.record cfg c v).trace = s.trace := rfl
@[simp] theorem State.record_responses (cfg : Config) (c : Fin channels) (v : Sample) : (s.record cfg c v).responses = s.responses := rfl

/-! ### respond -/

@[simp] theorem State.respond_chans (st : Status) (p : Option Snapshot) : (s.respond st p).chans = s.chans := rfl
@[simp] theorem State.respond_ts (st : Status) (p : Option Snapshot) : (s.respond st p).ts = s.ts := rfl
@[simp] theorem State.respond_phase (st : Status) (p : Option Snapshot) : (s.respond st p).phase = s.phase := rfl
@[simp] theorem State.respond_ch (st : Status) (p : Option Snapshot) : (s.respond st p).ch = s.ch := rfl
@[simp] theorem State.respond_tStart (st : Status) (p : Option Snapshot) : (s.respond st p).tStart = s.tStart := rfl
@[simp] theorem State.respond_cs (st : Status) (p : Option Snapshot) : (s.respond st p).cs = s.cs := rfl
@[simp] theorem State.respond_micro (st : Status) (p : Option Snapshot) : (s.respond st p).micro = .accepting := rfl
@[simp] theorem State.respond_port (st : Status) (p : Option Snapshot) : (s.respond st p).port = s.port := rfl
@[simp] theorem State.respond_env (st : Status) (p : Option Snapshot) : (s.respond st p).env = s.env := rfl
@[simp] theorem State.respond_trace (st : Status) (p : Option Snapshot) : (s.respond st p).trace = s.trace := rfl
@[simp] theorem State.respond_responses (st : Status) (p : Option Snapshot) : (s.respond st p).responses = s.responses ++ [{ status := st, done := s.done, snap := p }] := rfl
@[simp] theorem State.respond_chan (st : Status) (p : Option Snapshot) (d : Fin channels) : (s.respond st p).chan d = s.chan d := rfl

/-! ### advance -/

@[simp] theorem State.advance_chans : (s.advance).chans = s.chans := rfl
@[simp] theorem State.advance_ts : (s.advance).ts = s.ts := rfl
@[simp] theorem State.advance_phase : (s.advance).phase = s.phase := rfl
@[simp] theorem State.advance_ch : (s.advance).ch = nextIndex s.ch := rfl
@[simp] theorem State.advance_tStart : (s.advance).tStart = s.tStart := rfl
@[simp] theorem State.advance_cs : (s.advance).cs = s.cs := rfl
@[simp] theorem State.advance_micro : (s.advance).micro = s.micro := rfl
@[simp] theorem State.advance_port : (s.advance).port = s.port := rfl
@[simp] theorem State.advance_env : (s.advance).env = s.env := rfl
@[simp] theorem State.advance_trace : (s.advance).trace = s.trace := rfl
@[simp] theorem State.advance_responses : (s.advance).responses = s.responses := rfl
@[simp] theorem State.advance_chan (d : Fin channels) : (s.advance).chan d = s.chan d := rfl

/-! ### stamp -/

@[simp] theorem State.stamp_chans : (s.stamp).chans = s.chans := rfl
@[simp] theorem State.stamp_ts : (s.stamp).ts = s.elapsed := rfl
@[simp] theorem State.stamp_phase : (s.stamp).phase = s.phase := rfl
@[simp] theorem State.stamp_ch : (s.stamp).ch = s.ch := rfl
@[simp] theorem State.stamp_tStart : (s.stamp).tStart = s.tStart := rfl
@[simp] theorem State.stamp_cs : (s.stamp).cs = s.cs := rfl
@[simp] theorem State.stamp_micro : (s.stamp).micro = s.micro := rfl
@[simp] theorem State.stamp_port : (s.stamp).port = s.port := rfl
@[simp] theorem State.stamp_env : (s.stamp).env = s.env.afterNow := rfl
@[simp] theorem State.stamp_trace : (s.stamp).trace = s.trace ++ [.now s.env.nowAnswer] := rfl
@[simp] theorem State.stamp_responses : (s.stamp).responses = s.responses := rfl
@[simp] theorem State.stamp_chan (d : Fin channels) : (s.stamp).chan d = s.chan d := rfl

/-! ### setPhase -/

@[simp] theorem State.setPhase_chans (p : Phase) : (s.setPhase p).chans = s.chans := rfl
@[simp] theorem State.setPhase_ts (p : Phase) : (s.setPhase p).ts = s.ts := rfl
@[simp] theorem State.setPhase_phase (p : Phase) : (s.setPhase p).phase = p := rfl
@[simp] theorem State.setPhase_ch (p : Phase) : (s.setPhase p).ch = s.ch := rfl
@[simp] theorem State.setPhase_tStart (p : Phase) : (s.setPhase p).tStart = s.tStart := rfl
@[simp] theorem State.setPhase_cs (p : Phase) : (s.setPhase p).cs = s.cs := rfl
@[simp] theorem State.setPhase_micro (p : Phase) : (s.setPhase p).micro = s.micro := rfl
@[simp] theorem State.setPhase_port (p : Phase) : (s.setPhase p).port = s.port := rfl
@[simp] theorem State.setPhase_env (p : Phase) : (s.setPhase p).env = s.env := rfl
@[simp] theorem State.setPhase_trace (p : Phase) : (s.setPhase p).trace = s.trace := rfl
@[simp] theorem State.setPhase_responses (p : Phase) : (s.setPhase p).responses = s.responses := rfl
@[simp] theorem State.setPhase_chan (p : Phase) (d : Fin channels) : (s.setPhase p).chan d = s.chan d := rfl

/-! ### clearSession -/

@[simp] theorem State.clearSession_chans : (s.clearSession).chans = s.chans := rfl
@[simp] theorem State.clearSession_ts : (s.clearSession).ts = s.ts := rfl
@[simp] theorem State.clearSession_phase : (s.clearSession).phase = .idle := rfl
@[simp] theorem State.clearSession_ch : (s.clearSession).ch = 0 := rfl
@[simp] theorem State.clearSession_tStart : (s.clearSession).tStart = 0 := rfl
@[simp] theorem State.clearSession_cs : (s.clearSession).cs = s.cs := rfl
@[simp] theorem State.clearSession_micro : (s.clearSession).micro = s.micro := rfl
@[simp] theorem State.clearSession_port : (s.clearSession).port = s.port := rfl
@[simp] theorem State.clearSession_env : (s.clearSession).env = s.env := rfl
@[simp] theorem State.clearSession_trace : (s.clearSession).trace = s.trace := rfl
@[simp] theorem State.clearSession_responses : (s.clearSession).responses = s.responses := rfl
@[simp] theorem State.clearSession_chan (d : Fin channels) : (s.clearSession).chan d = s.chan d := rfl

/-! ### hardReset -/

@[simp] theorem State.hardReset_chans : (s.hardReset).chans = Vector.ofFn fun c : Fin channels => (s.chan c).init := rfl
@[simp] theorem State.hardReset_ts : (s.hardReset).ts = 0 := rfl
@[simp] theorem State.hardReset_phase : (s.hardReset).phase = .idle := rfl
@[simp] theorem State.hardReset_ch : (s.hardReset).ch = 0 := rfl
@[simp] theorem State.hardReset_tStart : (s.hardReset).tStart = 0 := rfl
@[simp] theorem State.hardReset_cs : (s.hardReset).cs = false := rfl
@[simp] theorem State.hardReset_micro : (s.hardReset).micro = .accepting := rfl
@[simp] theorem State.hardReset_port : (s.hardReset).port = s.port := rfl
@[simp] theorem State.hardReset_env : (s.hardReset).env = s.env := rfl
@[simp] theorem State.hardReset_trace : (s.hardReset).trace = s.trace := rfl
@[simp] theorem State.hardReset_responses : (s.hardReset).responses = s.responses := rfl

/-! ### openSession -/

@[simp] theorem State.openSession_chans : (s.openSession).chans = s.chans := rfl
@[simp] theorem State.openSession_ts : (s.openSession).ts = s.ts := rfl
@[simp] theorem State.openSession_phase : (s.openSession).phase = .sampling := rfl
@[simp] theorem State.openSession_ch : (s.openSession).ch = 0 := rfl
@[simp] theorem State.openSession_tStart : (s.openSession).tStart = s.env.nowAnswer := rfl
@[simp] theorem State.openSession_cs : (s.openSession).cs = s.cs := rfl
@[simp] theorem State.openSession_micro : (s.openSession).micro = s.micro := rfl
@[simp] theorem State.openSession_port : (s.openSession).port = s.port := rfl
@[simp] theorem State.openSession_env : (s.openSession).env = s.env.afterNow := rfl
@[simp] theorem State.openSession_trace : (s.openSession).trace = s.trace ++ [.now s.env.nowAnswer] := rfl
@[simp] theorem State.openSession_responses : (s.openSession).responses = s.responses := rfl
@[simp] theorem State.openSession_chan (d : Fin channels) : (s.openSession).chan d = s.chan d := rfl

/-! ### hold -/

@[simp] theorem State.hold_chans : (s.hold).chans = s.chans := rfl
@[simp] theorem State.hold_ts : (s.hold).ts = s.ts := rfl
@[simp] theorem State.hold_phase : (s.hold).phase = s.phase := rfl
@[simp] theorem State.hold_ch : (s.hold).ch = s.ch := rfl
@[simp] theorem State.hold_tStart : (s.hold).tStart = s.tStart := rfl
@[simp] theorem State.hold_cs : (s.hold).cs = s.cs := rfl
@[simp] theorem State.hold_micro : (s.hold).micro = .wait := rfl
@[simp] theorem State.hold_port : (s.hold).port = s.port := rfl
@[simp] theorem State.hold_env : (s.hold).env = s.env := rfl
@[simp] theorem State.hold_trace : (s.hold).trace = s.trace := rfl
@[simp] theorem State.hold_responses : (s.hold).responses = s.responses := rfl
@[simp] theorem State.hold_chan (d : Fin channels) : (s.hold).chan d = s.chan d := rfl

/-! ### takeInput -/

@[simp] theorem State.takeInput_chans : (s.takeInput).chans = s.chans := rfl
@[simp] theorem State.takeInput_ts : (s.takeInput).ts = s.ts := rfl
@[simp] theorem State.takeInput_phase : (s.takeInput).phase = s.phase := rfl
@[simp] theorem State.takeInput_ch : (s.takeInput).ch = s.ch := rfl
@[simp] theorem State.takeInput_tStart : (s.takeInput).tStart = s.tStart := rfl
@[simp] theorem State.takeInput_cs : (s.takeInput).cs = s.cs := rfl
@[simp] theorem State.takeInput_micro : (s.takeInput).micro = s.micro := rfl
@[simp] theorem State.takeInput_port : (s.takeInput).port = s.port.tail := rfl
@[simp] theorem State.takeInput_env : (s.takeInput).env = s.env := rfl
@[simp] theorem State.takeInput_trace : (s.takeInput).trace = s.trace := rfl
@[simp] theorem State.takeInput_responses : (s.takeInput).responses = s.responses := rfl
@[simp] theorem State.takeInput_chan (d : Fin channels) : (s.takeInput).chan d = s.chan d := rfl

/-! ### present -/

@[simp] theorem State.present_chans (op : CmdOp) : (s.present op).chans = s.chans := rfl
@[simp] theorem State.present_ts (op : CmdOp) : (s.present op).ts = s.ts := rfl
@[simp] theorem State.present_phase (op : CmdOp) : (s.present op).phase = s.phase := rfl
@[simp] theorem State.present_ch (op : CmdOp) : (s.present op).ch = s.ch := rfl
@[simp] theorem State.present_tStart (op : CmdOp) : (s.present op).tStart = s.tStart := rfl
@[simp] theorem State.present_cs (op : CmdOp) : (s.present op).cs = s.cs := rfl
@[simp] theorem State.present_micro (op : CmdOp) : (s.present op).micro = .accepting := rfl
@[simp] theorem State.present_port (op : CmdOp) : (s.present op).port = .command op :: s.port := rfl
@[simp] theorem State.present_env (op : CmdOp) : (s.present op).env = s.env := rfl
@[simp] theorem State.present_trace (op : CmdOp) : (s.present op).trace = s.trace := rfl
@[simp] theorem State.present_responses (op : CmdOp) : (s.present op).responses = s.responses := rfl
@[simp] theorem State.present_chan (op : CmdOp) (d : Fin channels) : (s.present op).chan d = s.chan d := rfl

/-! ### Channels of the bank -/

@[simp] theorem State.record_chan_self (cfg : Config) (c : Fin channels) (v : Sample) :
    (s.record cfg c v).chan c = (s.chan c).record cfg.accBits v := by
  simp [State.chan, State.record, Vector.get_eq_getElem]

theorem State.record_chan_ne (cfg : Config) (c d : Fin channels) (v : Sample) (h : d ≠ c) :
    (s.record cfg c v).chan d = s.chan d := by
  have : c.val ≠ d.val := fun e => h (Fin.ext e.symm)
  simp [State.chan, State.record, Vector.get_eq_getElem, this]

@[simp] theorem State.bankInit_chan (c : Fin channels) : s.bankInit.chan c = (s.chan c).init := by
  simp [State.chan, State.bankInit, Vector.get_eq_getElem]

@[simp] theorem State.hardReset_chan (c : Fin channels) : s.hardReset.chan c = (s.chan c).init := by
  simp [State.chan, State.hardReset, State.clearSession, State.bankInit, Vector.get_eq_getElem]

@[simp] theorem State.snapshot_ts : s.snapshot.ts = s.ts := rfl

@[simp] theorem State.snapshot_avg (c : Fin channels) : s.snapshot.avg.get c = (s.chan c).avg := by
  simp [State.snapshot, Vector.get_eq_getElem]

/-- Two banks are equal when their channels are. -/
theorem State.chans_ext {s t : State} (h : ∀ c : Fin channels, s.chan c = t.chan c) : s.chans = t.chans := by
  apply Vector.ext
  intro i hi
  have := h ⟨i, hi⟩
  simpa [State.chan, Vector.get_eq_getElem] using this

end Sys2Proof.Machine
end

