-- ==== Sys2Proof/Laws/Transport.lean ====
section
/-! SUPPORT. What the environment's answers are and what a call consumes: a listed answer is used first, a free value
only where the list is empty. -/

namespace Sys2Proof.Machine

variable (e : Env)

theorem Env.readyAnswer_listed (b : Bool) (bs : List Bool) (h : e.ready = b :: bs) :
    e.readyAnswer = b ∧ e.afterReady = { e with ready := bs } := by
  simp [Env.readyAnswer, Env.afterReady, h]

theorem Env.readyAnswer_free (h : e.ready = []) :
    e.readyAnswer = Config.freeReady e.draws ∧ e.afterReady = { e with draws := e.draws + 1 } := by
  simp [Env.readyAnswer, Env.afterReady, h]

theorem Env.xferAnswer_listed (r : XferBits) (rs : List XferBits) (h : e.xfer = r :: rs) :
    e.xferAnswer = r ∧ e.afterXfer = { e with xfer := rs } := by
  simp [Env.xferAnswer, Env.afterXfer, h]

theorem Env.xferAnswer_free (h : e.xfer = []) :
    e.xferAnswer = Config.freeXfer e.draws ∧ e.afterXfer = { e with draws := e.draws + 1 } := by
  simp [Env.xferAnswer, Env.afterXfer, h]

theorem Env.nowAnswer_listed (t : Time) (ts : List Time) (h : e.now = t :: ts) :
    e.nowAnswer = t ∧ e.afterNow = { e with now := ts } := by
  simp [Env.nowAnswer, Env.afterNow, h]

theorem Env.nowAnswer_free (h : e.now = []) :
    e.nowAnswer = Config.freeNow e.draws ∧ e.afterNow = { e with draws := e.draws + 1 } := by
  simp [Env.nowAnswer, Env.afterNow, h]

end Sys2Proof.Machine
end

