-- ==== Sys2Proof/Laws/Sequencer.lean ====
section
/-! SUPPORT. What each shared operation of the sequencer, each command and a step can do, said once. -/

namespace Sys2Proof.Machine

variable (s : State)

/-- DEADLINE_CHECK does one of three things (R139). -/
theorem State.deadlineCheck_cases (cfg : Config) :
    (s.phase ≠ .sampling ∧ s.deadlineCheck cfg = s) ∨
    (s.phase = .sampling ∧ deadlineMet cfg s.elapsed = true ∧
      s.deadlineCheck cfg = (s.readClock.setPhase .complete).select false) ∨
    (s.phase = .sampling ∧ deadlineMet cfg s.elapsed = false ∧ s.deadlineCheck cfg = s.readClock) := by
  unfold State.deadlineCheck
  by_cases h : s.phase = .sampling
  · cases hd : deadlineMet cfg s.elapsed <;> simp [h]
  · simp [h]

/-- STAMP runs exactly when the index is 0 (R138). -/
theorem State.stampOnWrap_cases :
    (s.ch.val = 0 ∧ s.stampOnWrap = s.stamp) ∨ (s.ch.val ≠ 0 ∧ s.stampOnWrap = s) := by
  unfold State.stampOnWrap
  by_cases h : s.ch.val = 0 <;> simp [h]

/-- One poll: the STEP is performed, or held (R135). -/
theorem State.waitReady_cases (cfg : Config) :
    (s.env.readyAnswer = true ∧ s.waitReady cfg = s.pollReady.performStep cfg) ∨
    (s.env.readyAnswer = false ∧ s.waitReady cfg = s.pollReady.hold) := by
  unfold State.waitReady
  cases h : s.env.readyAnswer <;> simp

/-! ### Fields a conditional operation never writes -/

@[simp] theorem State.stampOnWrap_chans : s.stampOnWrap.chans = s.chans := by
  unfold State.stampOnWrap; split <;> rfl
@[simp] theorem State.stampOnWrap_phase : s.stampOnWrap.phase = s.phase := by
  unfold State.stampOnWrap; split <;> rfl
@[simp] theorem State.stampOnWrap_ch : s.stampOnWrap.ch = s.ch := by
  unfold State.stampOnWrap; split <;> rfl
@[simp] theorem State.stampOnWrap_tStart : s.stampOnWrap.tStart = s.tStart := by
  unfold State.stampOnWrap; split <;> rfl
@[simp] theorem State.stampOnWrap_cs : s.stampOnWrap.cs = s.cs := by
  unfold State.stampOnWrap; split <;> rfl
@[simp] theorem State.stampOnWrap_micro : s.stampOnWrap.micro = s.micro := by
  unfold State.stampOnWrap; split <;> rfl
@[simp] theorem State.stampOnWrap_port : s.stampOnWrap.port = s.port := by
  unfold State.stampOnWrap; split <;> rfl
@[simp] theorem State.stampOnWrap_responses : s.stampOnWrap.responses = s.responses := by
  unfold State.stampOnWrap; split <;> rfl

@[simp] theorem State.deadlineCheck_chans (cfg : Config) : (s.deadlineCheck cfg).chans = s.chans := by
  unfold State.deadlineCheck; split <;> [split <;> rfl; rfl]
@[simp] theorem State.deadlineCheck_ts (cfg : Config) : (s.deadlineCheck cfg).ts = s.ts := by
  unfold State.deadlineCheck; split <;> [split <;> rfl; rfl]
@[simp] theorem State.deadlineCheck_ch (cfg : Config) : (s.deadlineCheck cfg).ch = s.ch := by
  unfold State.deadlineCheck; split <;> [split <;> rfl; rfl]
@[simp] theorem State.deadlineCheck_tStart (cfg : Config) : (s.deadlineCheck cfg).tStart = s.tStart := by
  unfold State.deadlineCheck; split <;> [split <;> rfl; rfl]
@[simp] theorem State.deadlineCheck_micro (cfg : Config) : (s.deadlineCheck cfg).micro = s.micro := by
  unfold State.deadlineCheck; split <;> [split <;> rfl; rfl]
@[simp] theorem State.deadlineCheck_port (cfg : Config) : (s.deadlineCheck cfg).port = s.port := by
  unfold State.deadlineCheck; split <;> [split <;> rfl; rfl]
@[simp] theorem State.deadlineCheck_responses (cfg : Config) : (s.deadlineCheck cfg).responses = s.responses := by
  unfold State.deadlineCheck; split <;> [split <;> rfl; rfl]

/-- The bank's channels depend on `chans` alone. -/
theorem State.chan_congr {s t : State} (h : s.chans = t.chans) (c : Fin channels) : s.chan c = t.chan c := by
  simp [State.chan, h]

/-! ### A performed STEP -/

/-- What a performed STEP does whatever the clock says (R134): one RECORD, the next index, one response. -/
theorem State.performStep_fields (cfg : Config) :
    (s.performStep cfg).chans = (s.record cfg s.ch (sampleOf s.env.xferAnswer)).chans ∧
    (s.performStep cfg).ch = nextIndex s.ch ∧ (s.performStep cfg).tStart = s.tStart ∧
    (s.performStep cfg).micro = .accepting ∧ (s.performStep cfg).port = s.port ∧
    (s.performStep cfg).responses =
      s.responses ++ [{ status := .ok, done := (s.performStep cfg).done, snap := none }] := by
  refine ⟨?_, ?_, ?_, ?_, ?_, ?_⟩
  · simp [State.performStep]
  · simp [State.performStep]
  · simp [State.performStep]
  · rfl
  · simp [State.performStep]
  · simp [State.performStep]; rfl

/-- What a performed STEP of a session does by the clock (R134, R138, R139): `ts` is stamped from a clock read made
exactly when the index wraps, and one more clock read decides the completion. -/
theorem State.performStep_clock (cfg : Config) (h : s.phase = .sampling) :
    ∃ (stamp : List Event) (now : Time),
      (((nextIndex s.ch).val ≠ 0 ∧ stamp = [] ∧ (s.performStep cfg).ts = s.ts) ∨
        ((nextIndex s.ch).val = 0 ∧ ∃ first : Time,
          stamp = [.now first] ∧ (s.performStep cfg).ts = elapsedSince s.tStart first)) ∧
      ((deadlineMet cfg (elapsedSince s.tStart now) = true ∧ (s.performStep cfg).phase = .complete ∧
          (s.performStep cfg).cs = false ∧ (s.performStep cfg).trace =
            s.trace ++ [.xfer .read s.env.xferAnswer] ++ stamp ++ [.now now, .select false]) ∨
        (deadlineMet cfg (elapsedSince s.tStart now) = false ∧ (s.performStep cfg).phase = .sampling ∧
          (s.performStep cfg).cs = s.cs ∧ (s.performStep cfg).trace =
            s.trace ++ [.xfer .read s.env.xferAnswer] ++ stamp ++ [.now now])) := by
  unfold State.performStep
  simp only
  set a := ((s.xfer16 .read).record cfg s.ch (sampleOf s.env.xferAnswer)).advance with ha
  rcases State.stampOnWrap_cases a with ⟨h0, e⟩ | ⟨h0, e⟩ <;> rw [e]
  · refine ⟨[.now a.env.nowAnswer], a.stamp.env.nowAnswer,
      .inr ⟨by simpa [ha] using h0, _, rfl, by simp [ha, State.elapsed]⟩, ?_⟩
    rcases State.deadlineCheck_cases a.stamp cfg with ⟨hp, _⟩ | ⟨_, hd, e⟩ | ⟨_, hd, e⟩
    · exact absurd h (by simpa [ha] using hp)
    · rw [e]; simp [ha, State.elapsed] at hd ⊢; exact hd
    · rw [e]; simp [ha, State.elapsed, h] at hd ⊢; exact hd
  · refine ⟨[], a.env.nowAnswer, .inl ⟨by simpa [ha] using h0, rfl, by simp [ha]⟩, ?_⟩
    rcases State.deadlineCheck_cases a cfg with ⟨hp, _⟩ | ⟨_, hd, e⟩ | ⟨_, hd, e⟩
    · exact absurd h (by simpa [ha] using hp)
    · rw [e]; simp [ha, State.elapsed] at hd ⊢; exact hd
    · rw [e]; simp [ha, State.elapsed, h] at hd ⊢; exact hd

/-! ### The commands -/

theorem exec_init : exec .init s = .next ((s.bankInit.clearSession.select false).respond .ok none) := rfl
theorem exec_start : exec .start s = .next ((s.startSession Config.hw).respond .ok none) := rfl
theorem exec_poll : exec .poll s = .next ((s.deadlineCheck Config.hw).respond .ok none) := rfl
theorem exec_reserved0 : exec .reserved0 s = .next (s.respond .illegal none) := rfl
theorem exec_reserved6 : exec .reserved6 s = .next (s.respond .illegal none) := rfl
theorem exec_reserved7 : exec .reserved7 s = .next (s.respond .illegal none) := rfl

theorem exec_step_sampling (h : s.phase = .sampling) : exec .step s = .next (s.waitReady Config.hw) := by
  simp [exec, execStep, h]

theorem exec_step_ignored (h : s.phase ≠ .sampling) : exec .step s = .next (s.respond .ignored none) := by
  simp [exec, execStep, h]

theorem exec_snap_complete (h : s.phase = .complete) :
    exec .snap s = .next (s.respond .ok (some s.snapshot)) := by
  simp [exec, execSnap, h]

theorem exec_snap_refused (h : s.phase ≠ .complete) : exec .snap s = .next (s.respond .notReady none) := by
  simp [exec, execSnap, h]

/-! ### A step -/

/-- What the port asks for (R88, R190). -/
theorem portAction_cases :
    (∃ rest, s.port = .reset :: rest ∧ portAction s = .reset s.takeInput) ∨
    (∃ rest, s.port = .idle :: rest ∧ s.micro = .accepting ∧ portAction s = .idle s.takeInput) ∨
    (s.port = [] ∧ s.micro = .accepting ∧ portAction s = .idle s) ∨
    (∃ rest, s.port = .idle :: rest ∧ s.micro = .wait ∧ portAction s = .poll s.takeInput) ∨
    ((∀ x rest, s.port = x :: rest → ∃ op, x = .command op) ∧ s.micro = .wait ∧ portAction s = .poll s) ∨
    (∃ op rest, s.port = .command op :: rest ∧ s.micro = .accepting ∧
      portAction s = .run (decode op) s.takeInput) := by
  unfold portAction
  rcases hp : s.port with _ | ⟨x, rest⟩ <;> rcases hm : s.micro <;> try cases x
  all_goals simp

/-- A step is a reset, nothing, one poll of a held STEP, or an accepted command; it never faults and is never
refused. -/
theorem step_cases :
    (∃ rest, s.port = .reset :: rest ∧ step s = .next s.takeInput.hardReset) ∨
    (∃ rest, s.port = .idle :: rest ∧ s.micro = .accepting ∧ step s = .next s.takeInput) ∨
    (s.port = [] ∧ s.micro = .accepting ∧ step s = .next s) ∨
    (∃ rest, s.port = .idle :: rest ∧ s.micro = .wait ∧ step s = .next (s.takeInput.waitReady Config.hw)) ∨
    ((∀ x rest, s.port = x :: rest → ∃ op, x = .command op) ∧ s.micro = .wait ∧
      step s = .next (s.waitReady Config.hw)) ∨
    (∃ op rest, s.port = .command op :: rest ∧ s.micro = .accepting ∧ step s = exec (decode op) s.takeInput) := by
  unfold step
  rcases portAction_cases s with ⟨rest, h, e⟩ | ⟨rest, h, m, e⟩ | ⟨h, m, e⟩ | ⟨rest, h, m, e⟩ | ⟨h, m, e⟩ | ⟨op, rest, h, m, e⟩
  · exact .inl ⟨rest, h, by rw [e]⟩
  · exact .inr (.inl ⟨rest, h, m, by rw [e]⟩)
  · exact .inr (.inr (.inl ⟨h, m, by rw [e]⟩))
  · exact .inr (.inr (.inr (.inl ⟨rest, h, m, by rw [e]⟩)))
  · exact .inr (.inr (.inr (.inr (.inl ⟨h, m, by rw [e]⟩))))
  · exact .inr (.inr (.inr (.inr (.inr ⟨op, rest, h, m, by rw [e]⟩))))

/-- Every command ends in a next state, and which one (R130). -/
theorem exec_cases (i : Instr) :
    (i = .init ∧ exec i s = .next ((s.bankInit.clearSession.select false).respond .ok none)) ∨
    (i = .start ∧ exec i s = .next ((s.startSession Config.hw).respond .ok none)) ∨
    (i = .step ∧ s.phase = .sampling ∧ exec i s = .next (s.waitReady Config.hw)) ∨
    (i = .step ∧ s.phase ≠ .sampling ∧ exec i s = .next (s.respond .ignored none)) ∨
    (i = .poll ∧ exec i s = .next ((s.deadlineCheck Config.hw).respond .ok none)) ∨
    (i = .snap ∧ s.phase = .complete ∧ exec i s = .next (s.respond .ok (some s.snapshot))) ∨
    (i = .snap ∧ s.phase ≠ .complete ∧ exec i s = .next (s.respond .notReady none)) ∨
    ((i = .reserved0 ∨ i = .reserved6 ∨ i = .reserved7) ∧ exec i s = .next (s.respond .illegal none)) := by
  cases i
  case step => by_cases h : s.phase = .sampling <;> simp [exec, execStep, h]
  case snap => by_cases h : s.phase = .complete <;> simp [exec, execSnap, h]
  all_goals simp [exec_init, exec_start, exec_poll, exec_reserved0, exec_reserved6, exec_reserved7]

end Sys2Proof.Machine
end

