-- ==== Sys2Proof/Laws/Runs.lean ====
section
/-! SUPPORT. The readings of Safety.lean, one step or one event at a time. -/

namespace Sys2Proof.Safety

open Sys2Proof.Machine

@[simp] theorem portAfterPolls_zero (p : List PortInput) : portAfterPolls 0 p = p := by
  simp [portAfterPolls]

@[simp] theorem portAfterPolls_nil (k : Nat) : portAfterPolls k [] = [] := by
  cases k <;> rfl

@[simp] theorem portAfterPolls_idle (k : Nat) (p : List PortInput) :
    portAfterPolls (k + 1) (.idle :: p) = portAfterPolls k p := rfl

@[simp] theorem portAfterPolls_command (k : Nat) (op : CmdOp) (p : List PortInput) :
    portAfterPolls k (.command op :: p) = .command op :: p := by
  cases k <;> rfl

/-- A step of a held STEP with no reset presented is one poll, with the port's leading idle entry taken. -/
theorem step_held (s : State) (hm : s.micro = .wait) (hp : PortInput.reset ∉ s.port) :
    step s = .next (({ s with port := portAfterPolls 1 s.port } : State).waitReady Config.hw) := by
  rcases step_cases s with ⟨r, h, e⟩ | ⟨r, h, hm', e⟩ | ⟨h, hm', e⟩ | ⟨r, h, hm', e⟩ | ⟨h, hm', e⟩ | ⟨op, r, h, hm', e⟩
  · simp [h] at hp
  · simp [hm] at hm'
  · simp [hm] at hm'
  · rw [e, h]; simp [State.takeInput, h]
  · rw [e]
    have : portAfterPolls 1 s.port = s.port := by
      rcases q : s.port with _ | ⟨x, rest⟩
      · rfl
      · obtain ⟨op, rfl⟩ := h x rest q; rfl
    rw [this]
  · simp [hm] at hm'

theorem runFor_succ {s t : State} (k : Nat) (h : step s = .next t) : runFor (k + 1) s = runFor k t := by
  simp only [runFor, h]

theorem readResults_append (a b : List Event) : readResults (a ++ b) = readResults a ++ readResults b := by
  simp [readResults]

theorem readsSinceBegin_append (a b : List Event) :
    readsSinceBegin (a ++ b) = b.foldl countReads (readsSinceBegin a) := by
  simp [readsSinceBegin, List.foldl_append]

theorem selectReplay_append (a b : List Event) :
    selectReplay (a ++ b) = b.foldl followSelect (selectReplay a) := by
  simp [selectReplay, List.foldl_append]

end Sys2Proof.Safety
end

