-- ==== Sys2Proof/Tests/Slice0.lean ====
section
/-! SUPPORT. Tests against the worked values of spec/95_test_vectors.md and the examples in the rules, the ill-formed terms
that WellFormed refuses, and for every statement with hypotheses a witness that meets them. -/

namespace Sys2Proof.Tests

open Sys2Proof.Machine Sys2Proof.Safety

/-! ## States to test on -/

/-- A session as START leaves it, with these answers to come; `ch` and `t_start` as given. -/
def session (ch : Fin channels) (tStart : Time) (ready : List Bool) (xfer : List XferBits) (now : List Time) : State :=
  { State.reset with
    phase := .sampling, cs := true, ch := ch, tStart := tStart
    env := { ready := ready, xfer := xfer, now := now, draws := 0 } }

/-- After completion, as DEADLINE_CHECK leaves it. -/
def completed : State := { State.reset with phase := .complete, ch := 3, ts := 59000 }

/-- The state in a `next`, for a look at its fields. -/
def after (o : Host.Outcome State Fault Refusal) (d : State) : State :=
  match o with
  | .next t => t
  | .fault _ => d
  | .refused _ => d

/-- A buffer of capacity 4 from its parts. -/
def buf (slots : Vector Sample 4) (hd tl : Fin 4) (cnt : Fin 5) : Buffer 4 :=
  { slots := slots, hd := hd, tl := tl, cnt := cnt }

/-! ## Decoding: words written out from 30_encoding.md R81 -/

theorem test_decode_reserved0 : decode 0b000#3 = .reserved0 := by decide
theorem test_decode_init : decode 0b001#3 = .init := by decide
theorem test_decode_start : decode 0b010#3 = .start := by decide
theorem test_decode_step : decode 0b011#3 = .step := by decide
theorem test_decode_poll : decode 0b100#3 = .poll := by decide
theorem test_decode_snap : decode 0b101#3 = .snap := by decide
theorem test_decode_reserved6 : decode 0b110#3 = .reserved6 := by decide
theorem test_decode_reserved7 : decode 0b111#3 = .reserved7 := by decide

/-- The table's words given in a whole byte. -/
theorem test_table_word_in_a_byte : decodeTableWord 8 5 = some .snap ∧ decodeTableWord 8 8 = none := by decide

/-! ## WellFormed: one ill-formed term for each check (00_scope.md R6) -/

theorem test_command_word_refused : commandWordOk 8 = false := by decide

/-- A legal setting whose command words are numbers, for the checks below. -/
def plain : Config :=
  { Config.hw with cmdBegin := 0, cmdRead := 65535 }

theorem test_plain_legal : plain.check = none := by decide
theorem test_no_channels : ({ plain with channels := 0 } : Config).check = some .noChannels := by decide
theorem test_no_capacity : ({ plain with capacity := 0 } : Config).check = some .noCapacity := by decide
theorem test_acc_13_bits : ({ plain with accBits := 13 } : Config).check = some .accumulatorTooNarrow := by decide
theorem test_window_33_bits : ({ plain with windowMs := 4294967296 } : Config).check = some .windowTooWide := by decide
theorem test_begin_17_bits : ({ plain with cmdBegin := 65536 } : Config).check = some .beginWordTooWide := by decide
theorem test_read_17_bits : ({ plain with cmdRead := 65536 } : Config).check = some .readWordTooWide := by decide

/-- `ACC_BITS` is 14 when `N = 4` (R5). -/
theorem test_acc_bits : accBits 4 = 14 ∧ accBits 1 = 12 ∧ accBits 5 = 15 := by decide

/-- R5, R30: `PTR_BITS` and `CNT_BITS` at the default, at capacity 1 and just above a power of two. -/
theorem test_ptr_cnt_bits :
    ptrBits 4 = 2 ∧ cntBits 4 = 3 ∧ ptrBits 1 = 1 ∧ cntBits 1 = 1 ∧ ptrBits 5 = 3 ∧ cntBits 7 = 3 ∧ cntBits 8 = 4 := by
  decide

/-- R5's table, but for the two OPEN words. -/
theorem test_parameters :
    plain = { channels := 16, capacity := 4, sampleBits := 12, sampleMax := 4095, xferBits := 16, timeBits := 32,
              windowMs := 60000, accBits := 14, ptrBits := 2, cntBits := 3, chBits := 4, cmdBegin := 0,
              cmdRead := 65535, primeXfers := 1 } := by decide

/-- R30's total. -/
theorem test_state_bits : plain.stateBits = 1143 ∧ plain.DerivedAsStated := by decide

/-- A derived width that is not R5's is noticed. -/
theorem test_not_as_stated : ¬ ({ plain with ptrBits := 3 } : Config).DerivedAsStated := by decide

/-- A full buffer's registers: `hd` = `tl` = 3, `cnt` = 4 (R30). -/
theorem test_register_codes :
    (buf #v[1, 2, 3, 4] 3 3 4).hdCode = 0b11 ∧ (buf #v[1, 2, 3, 4] 3 3 4).tlCode = 0b11 ∧
    (buf #v[1, 2, 3, 4] 3 3 4).cntCode = 0b100 ∧ (session 15 0 [] [] []).chCode = 0b1111 := by decide

/-! ## The buffer and the bank: L2-A, L2-B -/

/-- A1 step 5: evict the oldest, overwrite slot 0. -/
theorem test_enqueue_evicts :
    (buf #v[10, 20, 30, 40] 0 0 4).enqueue 50 = buf #v[50, 20, 30, 40] 1 1 4 := by decide

/-- A1 step 1: the divisor is the count, not the capacity. -/
theorem test_average_one_element : ((buf #v[9, 9, 9, 9] 0 0 0).enqueue 10).average 14 = 10 := by decide

/-- A2: sum 12285, average 3071 (truncated, no overflow). -/
theorem test_average_truncates : (buf #v[0, 4095, 4095, 4095] 1 1 4).average 14 = 3071 := by decide

/-- A4: contents in order across the wrap of the pointers. -/
theorem test_contents_wrap : (buf #v[4094, 3, 1, 4095] 3 3 4).contents = [4095, 4094, 3, 1] := by decide

/-- A5: stale slots do not influence the average. -/
theorem test_init_forgets : ((buf #v[50, 20, 30, 40] 1 1 4).init.enqueue 7).average 14 = 7 := by decide

/-- A7: capacity 1. -/
theorem test_capacity_one :
    (({ slots := #v[5], hd := 0, tl := 0, cnt := 1 } : Buffer 1).enqueue 6).contents = [6] := by decide

/-- A8: the running sum on A1 steps 4 to 5, 100 - 10 + 50 = 140. -/
theorem test_running_sum :
    (({ buffer := buf #v[10, 20, 30, 40] 0 0 4, sum := 100 } : SumBuffer 4 14).enqueue 50).sum = 140 := by decide

/-- B2: the first RECORD into an empty buffer gives the value itself; another channel keeps 0. -/
theorem test_record :
    ((State.reset.record Config.hw 15 4095).chan 15).avg = 4095 ∧ ((State.reset.record Config.hw 15 4095).chan 14).avg = 0 := by decide

/-! ## Bit fields: L2-C2, L2-D2, L2-D3 -/

/-- C2, BPST §8: 0xF123 records 0x123. -/
theorem test_mask : sampleOf 0xF123 = 0x123 ∧ sampleOf 0x1000 = 0 ∧ sampleOf 0x8FFF = 0xFFF := by decide

/-- D2. -/
theorem test_status_codes :
    Status.ok.code = 0b00 ∧ Status.ignored.code = 0b01 ∧ Status.notReady.code = 0b10 ∧ Status.illegal.code = 0b11 := by
  decide

/-- D3: the payload of `avg[k] = 0x100 + k`, `ts = 16`. -/
theorem test_payload :
    packLanes (List.ofFn ({ avg := #v[0x100, 0x101, 0x102, 0x103, 0x104, 0x105, 0x106, 0x107,
                 0x108, 0x109, 0x10A, 0x10B, 0x10C, 0x10D, 0x10E, 0x10F], ts := 16 } : Snapshot).lane) =
      0x00000010010F010E010D010C010B010A0109010801070106010501040103010201010100 := by decide

/-- R85, R167: the words on the wires are the two parameters. -/
theorem test_tx : XferWord.begin.tx { plain with cmdBegin := 0x1234 } = 0x1234 ∧ XferWord.read.tx plain = 0xFFFF := by
  decide

/-- R61: slot addresses, and the sample store read by address. -/
theorem test_slot_address :
    slotAddress 15 3 = 63 ∧ (State.record Config.hw 2 7 State.reset).memRead 8 = 7 ∧ (State.record Config.hw 2 7 State.reset).memRead 9 = 0 := by
  decide

/-- C3: a wrapped clock, and a clock that went backwards. -/
theorem test_elapsed :
    (elapsedSince 0xFFFFFF00 0x0000E960).toNat = 60000 ∧ elapsedSince 5 4 = 0xFFFFFFFF := by decide

/-! ## The commands -/

/-- R132's example: a session abandoned. -/
theorem test_init :
    let t := after (exec .init (({ session 7 1000 [] [] [] with ts := 4100 }).record Config.hw 3 900)) State.reset
    t.phase = .idle ∧ t.ch = 0 ∧ (t.chan 3).avg = 0 ∧ t.ts = 0 ∧ t.cs = false ∧ t.trace = [.select false] := by decide

/-- R133's example, with L1-8's discarded results: START after a completed session keeps `ts`. -/
theorem test_start :
    let t := after (exec .start { completed with
      env := { ready := [], xfer := [0xAAAA, 0xBBBB], now := [123456], draws := 0 } }) State.reset
    t.phase = .sampling ∧ t.ch = 0 ∧ t.tStart = 123456 ∧ t.cs = true ∧ t.ts = 59000 ∧
      t.trace = [.now 123456, .select true, .xfer .begin 0xAAAA, .xfer .read 0xBBBB] := by decide

/-- R134's example: the wrap, masking, the stamp. -/
theorem test_step_wrap :
    let t := after (exec .step (session 15 1000 [true] [0xF123] [1016, 1016])) State.reset
    (t.chan 15).avg = 291 ∧ t.ch = 0 ∧ t.ts = 16 ∧ t.phase = .sampling ∧
      t.responses = [{ status := .ok, done := false, snap := none }] := by decide

/-- L2-C1: the wrapping STEP that completes: stamp 59999, deadline at 60000. -/
theorem test_step_completes :
    let t := after (exec .step (session 15 0 [true] [0x0001] [59999, 60000])) State.reset
    t.ts = 59999 ∧ t.phase = .complete ∧ t.cs = false ∧
      t.trace = [.ready true, .xfer .read 1, .now 59999, .now 60000, .select false] := by decide

/-- L1-6: polled at 59999, then at 60000. -/
theorem test_poll :
    (after (exec .poll (session 0 0 [] [] [59999])) State.reset).phase = .sampling ∧
    (after (exec .poll (session 0 0 [] [] [60000])) State.reset).phase = .complete := by decide

/-- R141's example; the same bank in Sampling gives NOT_READY. -/
theorem test_snap :
    (after (exec .snap ({ completed with ts := 4100 }.record Config.hw 0 35)) State.reset).responses =
      [{ status := .ok, done := true
         snap := some { avg := #v[35, 0, 0, 0, 0, 0, 0, 0, 0, 0, 0, 0, 0, 0, 0, 0], ts := 4100 } }] ∧
    (after (exec .snap (session 0 0 [] [] [])) State.reset).responses =
      [{ status := .notReady, done := false, snap := none }] := by decide

/-- L2-C1: reserved opcodes in Complete and in Idle. -/
theorem test_reserved :
    (after (exec .reserved0 completed) State.reset).responses = [{ status := .illegal, done := true, snap := none }] ∧
    (after (exec .reserved6 State.reset) State.reset).responses = [{ status := .illegal, done := false, snap := none }] ∧
    (after (exec .reserved7 State.reset) State.reset).trace = [] := by decide

/-- The first step after reset runs the presented command: STEP in Idle is IGNORED (P3, line 1). -/
theorem test_first_step :
    (after (step (State.reset.withFetchWord 3 3)) State.reset).responses =
      [{ status := .ignored, done := false, snap := none }] := by decide

/-- A STEP held by a low ready line keeps the next command waiting (P5). -/
theorem test_hold :
    let t := after (step (State.present 3 { session 0 0 [false] [] [] with port := [.command 4] })) State.reset
    t.micro = .wait ∧ t.cmdReady = false ∧ t.port = [.command 4] ∧ t.responses = [] := by decide

/-! ## Witnesses: states that meet the hypotheses of the statements -/

/-- A session whose STEP is held, with a command presented. -/
def heldSession : State := { session 0 0 [false, true] [7] [5] with micro := .wait, port := [.command 4] }

theorem witness_CommandWordRoundTrip : Instr.wellFormed .snap = true := by decide

theorem witness_AcceptedCommandRunsDecoded :
    (State.reset.present 7).micro = .accepting ∧ (State.reset.present 7).port = .command 7 :: [] := by decide

theorem witness_NothingPresented :
    State.reset.micro = .accepting ∧ State.reset.port = [] ∧
    ({ State.reset with port := [.idle] } : State).port = .idle :: [] := by decide

theorem witness_HeldStepKeepsPolling :
    heldSession.micro = .wait ∧ heldSession.phase = .sampling ∧ heldSession.port = .command 4 :: [] ∧
    ({ heldSession with port := [] } : State).port = [] ∧
    ({ heldSession with port := [.idle] } : State).port = .idle :: [] := by decide

theorem witness_ResetInput : ({ heldSession with port := [.reset] } : State).port = .reset :: [] := by decide

theorem witness_StepRecordsOneSample :
    (session 14 0 [true] [7] [59999]).phase = .sampling ∧ (session 14 0 [true] [7] [59999]).env.readyAnswer = true ∧
    (session 14 0 [true] [7] [59999]).ch.val < 15 := by decide

theorem witness_StepWrapStampsThenChecks :
    (session 15 0 [true] [7] [1, 2]).phase = .sampling ∧ (session 15 0 [true] [7] [1, 2]).env.readyAnswer = true ∧
    (session 15 0 [true] [7] [1, 2]).ch.val = 15 := by decide

theorem witness_StepWritesOneSlot :
    let s := session 15 0 [true] [7] [1, 2]
    s.phase = .sampling ∧ s.env.readyAnswer = true ∧ (0 : Fin 64) ≠ slotAddress s.ch (s.chan s.ch).buffer.tl := by decide

theorem witness_StepHeldWhileNotReady :
    (session 15 0 [false] [] []).phase = .sampling ∧ (session 15 0 [false] [] []).env.readyAnswer = false := by decide

/-- For StepOutsideSamplingIgnored, PollChecksDeadline, SnapGatedOnComplete, DeadlineCheckForEveryWindow. -/
theorem witness_phases_idle_complete :
    State.reset.phase = .idle ∧ completed.phase = .complete ∧ State.reset.phase ≠ .complete ∧
    State.reset.phase ≠ .sampling := by decide

theorem witness_Poll_below_and_at_window :
    (session 0 0 [] [] [59999]).phase = .sampling ∧
    (elapsedSince (session 0 0 [] [] [59999]).tStart (session 0 0 [] [] [59999]).env.nowAnswer).toNat < 60000 ∧
    60000 ≤ (elapsedSince (session 0 0 [] [] [60000]).tStart (session 0 0 [] [] [60000]).env.nowAnswer).toNat := by
  decide

theorem witness_DeadlineCheckForEveryWindow :
    ({ plain with windowMs := 0 } : Config).windowMs ≤
      (elapsedSince (session 0 5 [] [] [5]).tStart (session 0 5 [] [] [5]).env.nowAnswer).toNat ∧
    (elapsedSince (session 0 5 [] [] [5]).tStart (session 0 5 [] [] [5]).env.nowAnswer).toNat < plain.windowMs := by
  decide

theorem witness_ElapsedIsTrueTimeBelowWrap :
    (4294967040 : Nat) ≤ 4295027040 ∧ 4295027040 - 4294967040 < 2 ^ 32 ∧
    (session 0 0xFFFFFF00 [] [] [0xEA60 - 0x100]).tStart = BitVec.ofNat 32 4294967040 ∧
    (session 0 0xFFFFFF00 [] [] [0xEA60 - 0x100]).env.nowAnswer = BitVec.ofNat 32 4295027040 := by decide

theorem witness_Buffer_wf_below_and_full :
    BufferWf (buf #v[1, 2, 3, 0] 0 3 3) ∧ (buf #v[1, 2, 3, 0] 0 3 3).contents.length < 4 ∧
    BufferWf (buf #v[1, 2, 3, 4] 2 2 4) ∧ (buf #v[1, 2, 3, 4] 2 2 4).contents.length = 4 := by
  unfold BufferWf; decide

theorem witness_MeanBounded :
    (buf #v[1, 2, 3, 0] 0 3 3).contents ≠ [] ∧ (∀ v ∈ (buf #v[1, 2, 3, 0] 0 3 3).contents, 1 ≤ v.toNat) ∧
    ∀ v ∈ (buf #v[1, 2, 3, 0] 0 3 3).contents, v.toNat ≤ 3 := by decide

theorem witness_AverageIsTruncatedMean :
    (buf #v[1, 2, 3, 0] 1 1 0).contents = [] ∧ (buf #v[1, 2, 3, 0] 0 3 3).contents ≠ [] := by decide

/-- The width of R5 at capacity 4, the least that R6 admits, and a wider one (D5). -/
theorem witness_accumulator_widths : (4 : Nat) * 4095 < 2 ^ 14 ∧ ¬ (4 : Nat) * 4095 < 2 ^ 13 ∧ (4 : Nat) * 4095 < 2 ^ 16 := by
  decide

theorem witness_RecordTouchesOneChannel :
    capacity * 4095 < 2 ^ Config.hw.accBits ∧ BufferWf (State.reset.chan 15).buffer := by unfold BufferWf; decide

/-- A session at channel 0 meets the invariants. -/
theorem session_inv (r : List Bool) (x : List XferBits) (n : List Time) : StateInv (session 0 0 r x n) where
  countLe c := Nat.le_of_lt_succ (Fin.isLt _)
  tail := by
    have h : ∀ c : Fin channels, BufferWf (State.reset.chan c).buffer := by unfold BufferWf; decide
    exact h
  average := by
    have h : ∀ c : Fin channels, (State.reset.chan c).avg.toNat = mean (State.reset.chan c).buffer.contents := by
      unfold mean; decide
    exact h
  index := ⟨Fin.isLt _, by simp [session]⟩
  selected := by simp [session]
  range c := ⟨Nat.le_of_lt_succ (BitVec.isLt _), fun v _ => Nat.le_of_lt_succ v.isLt⟩
  heldInSession := by simp [session]

theorem witness_StepKeepsInvariants :
    StateInv ({ session 0 0 [] [] [] with port := [.command 7] } : State) ∧
    ∃ t, step ({ session 0 0 [] [] [] with port := [.command 7] } : State) = .next t :=
  ⟨⟨(session_inv [] [] []).countLe, (session_inv [] [] []).tail, (session_inv [] [] []).average,
    (session_inv [] [] []).index, (session_inv [] [] []).selected, (session_inv [] [] []).range,
    (session_inv [] [] []).heldInSession⟩, _, rfl⟩

/-- Two states that differ in the stale slots and the pointers of one empty channel. -/
theorem witness_BufferLayoutUnobservable :
    let s := State.reset
    let t : State := { State.reset with
      chans := State.reset.chans.set 2 { buffer := buf #v[1, 2, 3, 4] 1 1 0, avg := 0 } }
    (∀ c : Fin channels, BufferWf (s.chan c).buffer) ∧ (∀ c : Fin channels, BufferWf (t.chan c).buffer) ∧
    SameVisible s t ∧ s ≠ t := by
  unfold BufferWf SameVisible; decide

theorem witness_ReachableStatesMeetInvariants :
    ∃ t, runFor 2 { State.reset with port := [.command 2, .command 4] } = .next t := ⟨_, rfl⟩

theorem witness_CompletionIsMonotonic :
    (completed.present 3).phase = .complete ∧ (completed.present 3).micro = .accepting ∧
    (∀ rest, (completed.present 3).port ≠ .reset :: rest) ∧
    (∀ op rest, (completed.present 3).port = .command op :: rest → decode op ≠ .init ∧ decode op ≠ .start) := by
  refine ⟨rfl, rfl, by simp [completed, State.reset], fun op rest h => ?_⟩
  simp only [State.present_port, List.cons.injEq, PortInput.command.injEq] at h
  rw [← h.1]
  decide

theorem witness_OnlyDeadlineCompletes :
    let s := State.present 4 (session 0 0 [] [] [60000])
    s.phase ≠ .complete ∧ ∃ t, step s = .next t ∧ t.phase = .complete := by
  refine ⟨by decide, _, rfl, by decide⟩

theorem witness_BankWritten_by_init :
    let s := State.present 1 { session 0 0 [] [] [] with ts := 9 }
    (s.micro = .wait → s.phase = .sampling) ∧ ∃ t, step s = .next t ∧ t.ts ≠ s.ts := by
  refine ⟨by decide, _, rfl, by decide⟩

theorem witness_BankWritten_by_reset :
    let s : State := { session 0 0 [] [] [] with ts := 9, port := [.reset] }
    (s.micro = .wait → s.phase = .sampling) ∧ ∃ t, step s = .next t ∧ t.ts ≠ s.ts := by
  refine ⟨by decide, _, rfl, by decide⟩

theorem witness_BankWritten_by_step :
    let s := State.present 3 (session 0 0 [true] [7] [0])
    (s.micro = .wait → s.phase = .sampling) ∧ ∃ t, step s = .next t ∧ t.chans ≠ s.chans := by
  refine ⟨by decide, after (step (State.present 3 (session 0 0 [true] [7] [0]))) State.reset, ?_, by decide⟩
  rfl

/-- `k` performed STEPs by evaluation. -/
def perform : Nat → State → Option State
  | 0, s => some s
  | k + 1, s =>
    match perform k s with
    | none => none
    | some u => if u.phase = .sampling ∧ u.env.readyAnswer = true then some (u.waitReady Config.hw) else none

theorem perform_sound (k : Nat) (s t : State) (h : perform k s = some t) : PerformedSteps k s t := by
  induction k generalizing t with
  | zero => cases h; exact .refl s
  | succ k ih =>
    simp only [perform] at h
    split at h
    · cases h
    · rename_i u hu
      split at h
      · rename_i hc
        cases h
        exact .performed (ih u hu) hc.1 hc.2 (exec_step_sampling u hc.1)
      · cases h

theorem witness_RoundRobinCycle_full :
    ∃ t, PerformedSteps 16 (session 0 0 (List.replicate 16 true) [] (List.replicate 17 0)) t := by
  have h : (perform 16 (session 0 0 (List.replicate 16 true) [] (List.replicate 17 0))).isSome = true := by decide
  obtain ⟨t, ht⟩ := Option.isSome_iff_exists.mp h
  exact ⟨t, perform_sound _ _ _ ht⟩

theorem witness_RoundRobinCycle_partial :
    ∃ t, PerformedSteps 1 (session 0 0 [true] [7] [0]) t ∧ (1 : Nat) < 16 := by
  have h : (perform 1 (session 0 0 [true] [7] [0])).isSome = true := by decide
  obtain ⟨t, ht⟩ := Option.isSome_iff_exists.mp h
  exact ⟨t, perform_sound _ _ _ ht, by decide⟩

theorem witness_StepKeepsChannelCount :
    let s := State.present 3 { session 1 0 [true] [7] [0] with
      trace := [.select true, .xfer .begin 1, .xfer .read 2, .ready true, .xfer .read 3] }
    ChannelCounts s ∧ s.phase ≠ .idle ∧ ∃ t, step s = .next t := by
  refine ⟨⟨by decide, fun _ => ⟨1, by decide⟩⟩, by decide, _, rfl⟩

theorem witness_StepKeepsTransfersSelected :
    let s := State.present 3 { session 1 0 [true] [7] [0] with trace := [.select true, .xfer .begin 1] }
    TransfersSelected s ∧ s.cs = true ∧ ∃ t, step s = .next t := by
  refine ⟨by unfold TransfersSelected; decide, by decide, _, rfl⟩

/-- Idle entries are taken one a poll, a command stays with all that is listed behind it (log 18). -/
theorem test_port_after_polls :
    portAfterPolls 2 [.idle, .command 4, .idle] = [.command 4, .idle] ∧ portAfterPolls 1 [.idle, .idle] = [.idle] ∧
    portAfterPolls 3 [.idle] = [] := by decide

/-- A run in which `RST` ends a hold (R173, R190): the poll's idle entry first, then `RST` at the head. -/
theorem test_reset_ends_hold :
    ∃ t, runFor 2 { heldSession with port := [.idle, .reset, .command 4] } = .next t ∧
      t.micro = .accepting ∧ t.phase = .idle ∧ t.cs = false ∧ t.port = [.command 4] ∧ t.responses = [] :=
  ⟨_, rfl, by decide⟩

theorem witness_HangChangesNothing :
    let s := { heldSession with env := { heldSession.env with ready := [false, false] } }
    s.micro = .wait ∧ s.phase = .sampling ∧ PortInput.reset ∉ s.port ∧ ReadyLowFor 2 s.env := by
  refine ⟨by decide, by decide, by decide, ?_⟩
  unfold ReadyLowFor
  decide

theorem witness_ReadyLiftsTheHold :
    heldSession.micro = .wait ∧ heldSession.phase = .sampling ∧ PortInput.reset ∉ heldSession.port ∧
    ReadyLowFor 1 heldSession.env ∧ (Env.afterReady^[1] heldSession.env).readyAnswer = true := by
  refine ⟨by decide, by decide, by decide, ?_, by decide⟩
  unfold ReadyLowFor
  decide

theorem witness_ResponseCarriesFinalFlag :
    ∃ t p, step (completed.present 5) = .next t ∧
      t.responses = [{ status := .ok, done := true, snap := some p }] :=
  ⟨_, _, rfl, rfl⟩

/-- After completion the invariants hold too. -/
theorem witness_SnapshotHoldsMeans :
    StateInv ({ session 0 0 [] [] [] with phase := .complete, cs := false } : State) ∧
    ({ session 0 0 [] [] [] with phase := .complete, cs := false } : State).phase = .complete :=
  ⟨{ countLe := (session_inv [] [] []).countLe
     tail := (session_inv [] [] []).tail
     average := (session_inv [] [] []).average
     index := ⟨Fin.isLt _, by simp⟩
     selected := by simp
     range := (session_inv [] [] []).range
     heldInSession := by simp [session, State.reset] }, rfl⟩

theorem witness_SampleTakenAfterDeadline :
    let s := session 4 0 [true] [0x0ABC] [60000, 60001]
    s.phase = .sampling ∧ s.env.readyAnswer = true ∧
    60000 ≤ (elapsedSince s.tStart s.env.afterReady.afterXfer.nowAnswer).toNat ∧
    60000 ≤ (elapsedSince s.tStart s.env.afterReady.afterXfer.afterNow.nowAnswer).toNat := by decide

theorem witness_ReservedOpcodesIllegal :
    Instr.reserved7 = .reserved0 ∨ Instr.reserved7 = .reserved6 ∨ Instr.reserved7 = .reserved7 := by decide

theorem witness_MisorderedBootHarmless :
    (Instr.poll = .step ∨ Instr.poll = .poll ∨ Instr.poll = .snap) ∧ State.reset.phase = .idle := by decide

end Sys2Proof.Tests
end

section
/-! PROOFS of the family `00_scope.md`: the response's final flag (R11, R83), the parameters and their constraints (R5,
R6), the register widths (R30). -/

namespace Sys2Proof.Machine

/-! ### Responses: what each operation reports -/

@[simp] theorem State.respond_done (s : State) (st : Status) (p : Option Snapshot) :
    (s.respond st p).done = s.done := rfl

@[simp] theorem State.primingXfers_responses (k : Nat) (s : State) :
    (s.primingXfers k).responses = s.responses := by
  induction k generalizing s with
  | zero => rfl
  | succ k ih => simp [State.primingXfers, ih]

@[simp] theorem State.startSession_responses (cfg : Config) (s : State) :
    (s.startSession cfg).responses = s.responses := by
  simp [State.startSession]

/-- R11, R83: what the response `r` says is true of `t`, the state it is given in. -/
def Response.Reports (r : Response) (t : State) : Prop :=
  t.micro = .accepting ∧ r.done = t.done ∧
    (∀ p, r.snap = some p → r.status = .ok ∧ t.phase = .complete ∧ p.ts = t.ts ∧
      ∀ c : Fin channels, p.avg.get c = (t.chan c).avg) ∧
    (r.status = .notReady → t.phase ≠ .complete)

/-- From `s` to `t` at most one response was given, and it reports `t`. -/
def State.RespondsAtMostOnce (s t : State) : Prop :=
  t.responses = s.responses ∨ ∃ r : Response, t.responses = s.responses ++ [r] ∧ r.Reports t

/-- The response of `respond` reports its state, where NOT_READY is given outside Complete only, and a snapshot only
under OK in Complete, taken of that state. -/
theorem State.respond_respondsAtMostOnce {s u : State} (hu : u.responses = s.responses) (st : Status)
    (p : Option Snapshot) (hn : st = .notReady → u.phase ≠ .complete)
    (hp : ∀ q, p = some q → st = .ok ∧ u.phase = .complete ∧ q = u.snapshot) :
    s.RespondsAtMostOnce (u.respond st p) := by
  refine .inr ⟨{ status := st, done := u.done, snap := p }, by rw [respond_responses, hu], rfl, rfl, ?_, hn⟩
  intro q hq
  obtain ⟨hst, hc, rfl⟩ := hp q hq
  exact ⟨hst, hc, rfl, u.snapshot_avg⟩

/-- The response of a performed STEP reports the state after the deadline check; a poll that answers 0 gives none. -/
theorem State.waitReady_respondsAtMostOnce (cfg : Config) (s : State) :
    s.RespondsAtMostOnce (s.waitReady cfg) := by
  rcases s.waitReady_cases cfg with ⟨_, e⟩ | ⟨_, e⟩ <;> rw [e]
  · obtain ⟨-, -, -, hmicro, -, hresp⟩ := s.pollReady.performStep_fields cfg
    exact .inr ⟨_, hresp, hmicro, rfl, by simp, by simp⟩
  · exact .inl rfl

/-- INIT, START, POLL and the reserved opcodes answer with no snapshot, STEP by `waitReady` or IGNORED, and SNAP by the
phase it finds (R131 to R144). -/
theorem exec_respondsAtMostOnce (i : Instr) {s t : State} (h : exec i s = .next t) : s.RespondsAtMostOnce t := by
  rcases exec_cases s i with ⟨_, e⟩ | ⟨_, e⟩ | ⟨_, _, e⟩ | ⟨_, _, e⟩ | ⟨_, e⟩ | ⟨_, hc, e⟩ | ⟨_, hc, e⟩ | ⟨_, e⟩ <;>
    cases e.symm.trans h
  · exact State.respond_respondsAtMostOnce (by simp) .ok none (by simp) (by simp)
  · exact State.respond_respondsAtMostOnce (by simp) .ok none (by simp) (by simp)
  · exact s.waitReady_respondsAtMostOnce Config.hw
  · exact State.respond_respondsAtMostOnce rfl .ignored none (by simp) (by simp)
  · exact State.respond_respondsAtMostOnce (by simp) .ok none (by simp) (by simp)
  · exact State.respond_respondsAtMostOnce rfl .ok (some s.snapshot) (by simp) (by simp [hc])
  · exact State.respond_respondsAtMostOnce rfl .notReady none (fun _ => hc) (by simp)
  · exact State.respond_respondsAtMostOnce rfl .illegal none (by simp) (by simp)

/-- Reset and an idle port give no response (R190); a poll of a held STEP and an accepted command give at most one. -/
theorem step_respondsAtMostOnce {s t : State} (h : step s = .next t) : s.RespondsAtMostOnce t := by
  rcases step_cases s with ⟨_, _, e⟩ | ⟨_, _, _, e⟩ | ⟨_, _, e⟩ | ⟨_, _, _, e⟩ | ⟨_, _, e⟩ | ⟨op, _, _, _, e⟩
  · cases e.symm.trans h; exact .inl rfl
  · cases e.symm.trans h; exact .inl rfl
  · cases e.symm.trans h; exact .inl rfl
  · cases e.symm.trans h; exact s.takeInput.waitReady_respondsAtMostOnce Config.hw
  · cases e.symm.trans h; exact s.waitReady_respondsAtMostOnce Config.hw
  · exact exec_respondsAtMostOnce (s := s.takeInput) (decode op) (e.symm.trans h)

/-- Settles O44: the only response of a step comes from `respond` or a performed STEP, and both read the flag last. -/
theorem responseCarriesFinalFlag : Obligations.ResponseCarriesFinalFlag :=
  fun _ _ h => step_respondsAtMostOnce h

/-! ### Register widths -/

/-- A pointer fits `PTR_BITS` (R5, R30). -/
theorem lt_two_pow_ptrBits {n : Nat} (p : Fin n) : p.val < 2 ^ ptrBits n :=
  calc p.val < n := p.isLt
    _ ≤ 2 ^ ceilLog2 n := le_two_pow_ceilLog2 n
    _ ≤ 2 ^ ptrBits n := Nat.pow_le_pow_right Nat.two_pos (Nat.le_max_right 1 _)

/-- A count fits `CNT_BITS` (R5, R30). -/
theorem lt_two_pow_cntBits {n : Nat} (k : Fin (n + 1)) : k.val < 2 ^ cntBits n :=
  k.isLt.trans_le (le_two_pow_ceilLog2 (n + 1))

/-- A number below `2 ^ w` keeps its value in `w` bits. -/
theorem toNat_ofNat_of_lt {w k : Nat} (h : k < 2 ^ w) : (BitVec.ofNat w k).toNat = k := by
  rw [BitVec.toNat_ofNat, Nat.mod_eq_of_lt h]

/-- Settles O53: every pointer, count and channel index is below two to the power of its register's width. -/
theorem registerCodesLoseNothing : Obligations.RegisterCodesLoseNothing := by
  refine ⟨fun n b => ⟨?_, ?_, ?_⟩, fun s => ?_⟩
  · exact toNat_ofNat_of_lt (lt_two_pow_ptrBits b.hd)
  · exact toNat_ofNat_of_lt (lt_two_pow_ptrBits b.tl)
  · exact toNat_ofNat_of_lt (lt_two_pow_cntBits b.cnt)
  · exact toNat_ofNat_of_lt s.ch.isLt

end Sys2Proof.Machine

namespace Sys2Proof

/-! ### The parameters -/

/-- One line of a chain of refusals: it passes when its own condition fails and the rest passes. -/
theorem ite_some_eq_none_iff {α : Type} (p : Prop) [Decidable p] (a : α) (o : Option α) :
    (if p then some a else o) = none ↔ ¬p ∧ o = none := by
  by_cases h : p <;> simp [h]

/-- The check of R6 passes exactly when all six constraints hold. -/
theorem Config.legal_iff (c : Config) :
    c.Legal ↔ 1 ≤ c.channels ∧ 1 ≤ c.capacity ∧ c.capacity * c.sampleMax < 2 ^ c.accBits ∧
      c.windowMs < 2 ^ c.timeBits ∧ c.cmdBegin < 2 ^ 16 ∧ c.cmdRead < 2 ^ 16 := by
  simp only [Config.Legal, Config.check, ite_some_eq_none_iff, not_le, and_true, Nat.one_le_iff_ne_zero, ne_eq]

/-- The two OPEN words are constrained by their width alone, so any 16-bit words are legal (R6, R85). -/
theorem Config.hw_withWords_legal (b r : XferBits) :
    ({ Config.hw with cmdBegin := b.toNat, cmdRead := r.toNat } : Config).Legal :=
  (Config.legal_iff _).2 ⟨by norm_num, by norm_num, by norm_num, by norm_num, b.isLt, r.isLt⟩

/-- Settles O50: the setting of this hardware is one of those with two 16-bit words. -/
theorem hardwareParametersLegal : Obligations.HardwareParametersLegal :=
  ⟨Config.hw_withWords_legal Config.beginWord Config.readWord, Config.hw_withWords_legal⟩

/-- R5's formulas at this hardware's `SAMPLE_BITS`, `N` and `CHANNELS`. -/
theorem Config.hw_derivedAsStated : Config.hw.DerivedAsStated := by decide

/-- R30's total: 768 bits of slots, 112 of pointers and counts, 192 of averages, and 71 of session state. -/
theorem Config.hw_stateBits : Config.hw.stateBits = 1143 := by decide

/-- Settles O52: the twelve values are fields of the setting, the formulas and the total are computed from them. -/
theorem parametersAsStated : Obligations.ParametersAsStated :=
  ⟨rfl, rfl, rfl, rfl, rfl, rfl, rfl, rfl, rfl, rfl, rfl, rfl, Config.hw_derivedAsStated, Config.hw_stateBits⟩

end Sys2Proof
end

section
/-! PROOFS of the family `10_state.md`: the invariants of the state (R46) at reset and in every reachable state, the
snapshot (R36), and that the layout of a buffer cannot be observed (R34, R35). -/

namespace Sys2Proof.Machine

open Sys2Proof.Safety

/-! ### The mean, and the accumulator that computes it -/

/-- A sum of samples is at most `SAMPLE_MAX` for each of them. -/
theorem sum_toNat_le (l : List Sample) : (l.map BitVec.toNat).sum ≤ l.length * 4095 := by
  simpa using List.sum_le_card_nsmul (l.map BitVec.toNat) 4095
    (List.forall_mem_map.mpr fun v _ => sample_toNat_le v)

/-- Additions in `w` bits are exact as long as the total stays below `2 ^ w` (R104). -/
theorem foldl_add_setWidth_toNat {w : Nat} (l : List Sample) (acc : BitVec w)
    (h : acc.toNat + (l.map BitVec.toNat).sum < 2 ^ w) :
    (l.foldl (fun acc v => acc + v.setWidth w) acc).toNat = acc.toNat + (l.map BitVec.toNat).sum := by
  induction l generalizing acc with
  | nil => simp
  | cons v l ih =>
    simp only [List.map_cons, List.sum_cons, List.foldl_cons] at h ⊢
    have hv : (acc + v.setWidth w).toNat = acc.toNat + v.toNat := by
      rw [BitVec.toNat_add, BitVec.toNat_setWidth, Nat.add_mod_mod, Nat.mod_eq_of_lt (by omega)]
    rw [ih _ (by omega), hv, Nat.add_assoc]

/-- The mean of samples is a sample's value. -/
theorem mean_le (l : List Sample) : mean l ≤ 4095 := by
  unfold mean
  split
  · exact Nat.zero_le _
  · exact Nat.div_le_of_le_mul (sum_toNat_le l)

section Buffer

variable {n : Nat} {b : Buffer n}

/-- The accumulator of a width that R6 admits holds the exact sum of the held elements (R104). -/
theorem Buffer.accumulate_toNat {w : Nat} (hw : n * 4095 < 2 ^ w) :
    (b.accumulate w).toNat = (b.contents.map BitVec.toNat).sum := by
  have hlen : b.contents.length ≤ n := by
    rw [Buffer.contents_length]; exact Nat.le_of_lt_succ b.cnt.isLt
  have hsum := (sum_toNat_le b.contents).trans (Nat.mul_le_mul_right 4095 hlen)
  simpa [Buffer.accumulate] using foldl_add_setWidth_toNat b.contents (0 : BitVec w) (by simp; omega)

/-- AVERAGE is the truncated mean of the contents (R103). -/
theorem Buffer.average_toNat {w : Nat} (hw : n * 4095 < 2 ^ w) : (b.average w).toNat = mean b.contents := by
  have hle := mean_le b.contents
  by_cases hc : b.cnt.val = 0
  · simp [Buffer.average, mean, Buffer.contents_eq_nil_iff, hc]
  · simp only [mean, Buffer.contents_eq_nil_iff, hc, if_false, Buffer.contents_length] at hle ⊢
    simp only [Buffer.average, hc, if_false, Buffer.accumulate_toNat hw, BitVec.toNat_ofNat]
    exact Nat.mod_eq_of_lt (by omega)

/-- AVERAGE sees the contents and nothing else of a buffer (R35, R103). -/
theorem Buffer.average_congr {b' : Buffer n} (w : Nat) (h : b.contents = b'.contents) :
    b.average w = b'.average w := by
  have hc : b.cnt.val = b'.cnt.val := by rw [← b.contents_length, ← b'.contents_length, h]
  simp only [Buffer.average, Buffer.accumulate, h, hc]

/-! ### Contents and pointers under the buffer's operations -/

@[simp] theorem Buffer.init_contents : b.init.contents = [] := by
  rw [Buffer.contents_eq_nil_iff, Buffer.init_cnt_val]

theorem Buffer.init_wf : BufferWf b.init := by simp [BufferWf]

/-- The slot after the newest element is the one at the tail. -/
theorem Buffer.slotIndex_cnt (hb : BufferWf b) : b.slotIndex b.cnt.val = b.tl := Fin.ext hb.symm

/-- No held element stands in the slot at the tail, below capacity. -/
theorem Buffer.slotIndex_ne_tl (hb : BufferWf b) {k : Nat} (hk : k < b.cnt.val) (hc : b.cnt.val < n) :
    b.slotIndex k ≠ b.tl := by
  intro h
  have hmod : b.hd.val + k ≡ b.hd.val + b.cnt.val [MOD n] := (congrArg Fin.val h).trans hb
  have := (Nat.ModEq.add_left_cancel' _ hmod).eq_of_lt_of_lt (hk.trans hc) hc
  omega

theorem Buffer.appendTail_wf (hb : BufferWf b) (hc : b.cnt.val < n) (v : Sample) :
    BufferWf (b.appendTail hc v) := by
  show (b.tl.val + 1) % n = (b.hd.val + (b.cnt.val + 1)) % n
  rw [hb, Nat.mod_add_mod, Nat.add_assoc]

/-- The tail store appends: the held elements' slots are not written, and the next one is (R101). -/
theorem Buffer.appendTail_contents (hb : BufferWf b) (hc : b.cnt.val < n) (v : Sample) :
    (b.appendTail hc v).contents = b.contents ++ [v] := by
  apply List.ext_getElem
  · simp [Buffer.appendTail]
  intro k hk hk'
  have hslot : (b.appendTail hc v).contents[k] =
      (b.slots.set b.tl.val v b.tl.isLt).get (b.slotIndex k) := Buffer.contents_getElem _ k hk
  have hle : k < b.cnt.val + 1 := by simpa using hk'
  rw [hslot, Vector.get_eq_getElem, Vector.getElem_set]
  rcases Nat.lt_succ_iff_lt_or_eq.mp hle with hlt | rfl
  · have hne : b.tl.val ≠ (b.slotIndex k).val := fun e => Buffer.slotIndex_ne_tl hb hlt hc (Fin.ext e.symm)
    rw [if_neg hne, List.getElem_append_left (by simpa using hlt), Buffer.contents_getElem,
      Vector.get_eq_getElem]
  · simp [Buffer.slotIndex_cnt hb]

theorem Buffer.evict_wf (hb : BufferWf b) (hc : 1 ≤ b.cnt.val) : BufferWf (b.evict hc) := by
  show b.tl.val = ((b.hd.val + 1) % n + (b.cnt.val - 1)) % n
  rw [hb, Nat.mod_add_mod, Nat.add_assoc, Nat.add_sub_cancel' hc]

/-- EVICT drops the oldest element (R102). -/
theorem Buffer.evict_contents (hc : 1 ≤ b.cnt.val) : (b.evict hc).contents = b.contents.drop 1 := by
  apply List.ext_getElem
  · simp [Buffer.evict]
  intro k hk hk'
  rw [List.getElem_drop, Buffer.contents_getElem, Buffer.contents_getElem]
  have hslot : (b.evict hc).slotIndex k = b.slotIndex (1 + k) :=
    Fin.ext (by simp [Buffer.evict, Nat.mod_add_mod, Nat.add_assoc])
  rw [hslot]
  rfl

/-- At capacity ENQUEUE is EVICT and then the tail store (R101). -/
theorem Buffer.enqueue_at_capacity (v : Sample) (h : b.cnt.val = n) :
    ∃ (hc : 1 ≤ b.cnt.val) (hlt : (b.evict hc).cnt.val < n), b.enqueue v = (b.evict hc).appendTail hlt v := by
  have hn := b.hd.pos
  exact ⟨by omega, by simp only [Buffer.evict]; omega, by simp [Buffer.enqueue, h]⟩

theorem Buffer.enqueue_wf (hb : BufferWf b) (v : Sample) : BufferWf (b.enqueue v) := by
  rcases Nat.lt_or_eq_of_le (Nat.le_of_lt_succ b.cnt.isLt) with hlt | heq
  · rw [Buffer.enqueue_below b v hlt]
    exact Buffer.appendTail_wf hb hlt v
  · obtain ⟨hc, hlt, e⟩ := Buffer.enqueue_at_capacity v heq
    rw [e]
    exact Buffer.appendTail_wf (Buffer.evict_wf hb hc) hlt v

/-- ENQUEUE on the contents as a list (R106). -/
theorem Buffer.enqueue_contents (hb : BufferWf b) (v : Sample) :
    (b.enqueue v).contents = pushBounded n b.contents v := by
  rcases Nat.lt_or_eq_of_le (Nat.le_of_lt_succ b.cnt.isLt) with hlt | heq
  · rw [Buffer.enqueue_below b v hlt, Buffer.appendTail_contents hb, pushBounded,
      if_pos (by simpa using hlt)]
  · obtain ⟨hc, hlt, e⟩ := Buffer.enqueue_at_capacity v heq
    rw [e, Buffer.appendTail_contents (Buffer.evict_wf hb hc), Buffer.evict_contents, pushBounded,
      if_neg (by simp [heq])]

end Buffer

/-! ### START, and the bank at reset -/

/-- Priming transfers consume answers and leave events, nothing else (R133, R162). -/
theorem State.primingXfers_eq (k : Nat) (s : State) :
    ∃ (e : Env) (tr : List Event), s.primingXfers k = { s with env := e, trace := tr } := by
  induction k generalizing s with
  | zero => exact ⟨s.env, s.trace, rfl⟩
  | succ k ih =>
    obtain ⟨e, tr, h⟩ := ih (s.xfer16 .read)
    exact ⟨e, tr, h⟩

/-- START selects the line, opens the session, and writes nothing of the bank (R133). -/
theorem State.startSession_opens (cfg : Config) (s : State) :
    (s.startSession cfg).chans = s.chans ∧ (s.startSession cfg).phase = .sampling ∧
      (s.startSession cfg).cs = true := by
  obtain ⟨e, tr, h⟩ := State.primingXfers_eq cfg.primeXfers ((s.openSession.select true).xfer16 .begin)
  simp [State.startSession, h]

@[simp] theorem State.reset_chan (c : Fin channels) : State.reset.chan c = Channel.reset := by
  simp [State.chan, State.reset, Vector.get_eq_getElem]

end Sys2Proof.Machine

namespace Sys2Proof.Safety

open Sys2Proof.Machine

/-! ### R46 as two parts: the bank, and the session -/

theorem channelWf_init {n : Nat} (c : Channel n) : ChannelWf c.init :=
  ⟨Buffer.init_wf, by simp [mean]⟩

theorem ChannelWf.record {n w : Nat} {c : Channel n} (hc : ChannelWf c) (hw : n * 4095 < 2 ^ w) (v : Sample) :
    ChannelWf (c.record w v) :=
  ⟨Buffer.enqueue_wf hc.1 v, Buffer.average_toNat hw⟩

/-- R46 items 2 and 3, for every channel. -/
def BankWf (s : State) : Prop := ∀ c : Fin channels, ChannelWf (s.chan c)

/-- R46 item 5. -/
def Selected (s : State) : Prop := s.cs = true ↔ s.phase = .sampling

/-- Only a session holds a STEP (R43, R135). -/
def HeldInSession (s : State) : Prop := s.micro = .wait → s.phase = .sampling

/-- The other items of R46 hold by the types of the fields. -/
theorem stateInv_iff (s : State) : StateInv s ↔ BankWf s ∧ Selected s ∧ HeldInSession s := by
  constructor
  · intro h
    exact ⟨fun c => ⟨h.tail c, h.average c⟩, h.selected, h.heldInSession⟩
  · rintro ⟨hbank, hsel, hheld⟩
    exact
      { countLe := fun c => Nat.le_of_lt_succ (s.chan c).buffer.cnt.isLt
        tail := fun c => (hbank c).1
        average := fun c => (hbank c).2
        index := ⟨s.ch.isLt, by cases s.phase <;> simp⟩
        selected := hsel
        range := fun c => ⟨sample_toNat_le _, fun v _ => sample_toNat_le v⟩
        heldInSession := hheld }

theorem BankWf.congr {s t : State} (h : BankWf s) (e : t.chans = s.chans) : BankWf t := by
  intro c
  rw [State.chan_congr e c]
  exact h c

theorem bankWf_bankInit (s : State) : BankWf s.bankInit := by
  intro c
  rw [State.bankInit_chan]
  exact channelWf_init _

theorem BankWf.record {s : State} (h : BankWf s) (c : Fin channels) (v : Sample) :
    BankWf (s.record Config.hw c v) := by
  intro d
  by_cases hd : d = c
  · rw [hd, State.record_chan_self]
    exact (h c).record (by decide) v
  · rw [State.record_chan_ne s Config.hw c d v hd]
    exact h d

theorem selected_deadlineCheck {s : State} (h : Selected s) (cfg : Config) : Selected (s.deadlineCheck cfg) := by
  rcases s.deadlineCheck_cases cfg with ⟨_, e⟩ | ⟨_, _, e⟩ | ⟨_, _, e⟩ <;> rw [e]
  · exact h
  · simp [Selected]
  · exact h

/-! ### Every step keeps R46 -/

theorem stateInv_respond {s : State} (hb : BankWf s) (hs : Selected s) (st : Status) (p : Option Snapshot) :
    StateInv (s.respond st p) :=
  (stateInv_iff _).2 ⟨hb, hs, by simp [HeldInSession]⟩

theorem stateInv_hardReset (s : State) : StateInv s.hardReset := by
  refine (stateInv_iff _).2 ⟨(bankWf_bankInit s).congr rfl, ?_, ?_⟩
  · simp [Selected]
  · simp [HeldInSession]

theorem stateInv_takeInput {s : State} (h : StateInv s) : StateInv s.takeInput :=
  (stateInv_iff _).2 ((stateInv_iff s).1 h)

/-- A performed STEP records into one channel, and drops the line exactly if it completes the session (R134, R139). -/
theorem stateInv_performStep {s : State} (h : StateInv s) (hp : s.phase = .sampling) :
    StateInv (s.performStep Config.hw) := by
  obtain ⟨hbank, hsel, -⟩ := (stateInv_iff s).1 h
  obtain ⟨hchans, -, -, hmicro, -, -⟩ := s.performStep_fields Config.hw
  refine (stateInv_iff _).2 ⟨(hbank.record s.ch _).congr hchans, ?_, by simp [HeldInSession, hmicro]⟩
  obtain ⟨_, _, -, ⟨-, hphase, hcs, -⟩ | ⟨-, hphase, hcs, -⟩⟩ := s.performStep_clock Config.hw hp
  · simp [Selected, hphase, hcs]
  · simpa [Selected, hphase, hcs, hp] using hsel

theorem stateInv_waitReady {s : State} (h : StateInv s) (hp : s.phase = .sampling) :
    StateInv (s.waitReady Config.hw) := by
  obtain ⟨hbank, hsel, hheld⟩ := (stateInv_iff s).1 h
  rcases s.waitReady_cases Config.hw with ⟨_, e⟩ | ⟨_, e⟩ <;> rw [e]
  · exact stateInv_performStep ((stateInv_iff s.pollReady).2 ⟨hbank, hsel, hheld⟩) hp
  · exact (stateInv_iff s.pollReady.hold).2 ⟨hbank, hsel, fun _ => hp⟩

/-- Every command but a held STEP ends in `respond`, of a state whose bank and line agree with R46. -/
theorem exec_keeps_stateInv {s t : State} (i : Instr) (h : StateInv s) (e : exec i s = .next t) : StateInv t := by
  obtain ⟨hbank, hsel, -⟩ := (stateInv_iff s).1 h
  rcases exec_cases s i with ⟨_, e'⟩ | ⟨_, e'⟩ | ⟨_, hp, e'⟩ | ⟨_, _, e'⟩ | ⟨_, e'⟩ | ⟨_, _, e'⟩ | ⟨_, _, e'⟩ | ⟨_, e'⟩ <;>
    cases e'.symm.trans e
  · exact stateInv_respond (s := s.bankInit.clearSession.select false) ((bankWf_bankInit s).congr rfl)
      (by simp [Selected]) .ok none
  · obtain ⟨hchans, hphase, hcs⟩ := s.startSession_opens Config.hw
    exact stateInv_respond (hbank.congr hchans) (by simp [Selected, hphase, hcs]) .ok none
  · exact stateInv_waitReady h hp
  · exact stateInv_respond hbank hsel .ignored none
  · exact stateInv_respond (hbank.congr (by simp)) (selected_deadlineCheck hsel Config.hw) .ok none
  · exact stateInv_respond hbank hsel .ok (some s.snapshot)
  · exact stateInv_respond hbank hsel .notReady none
  · exact stateInv_respond hbank hsel .illegal none

/-- Settles O30: reset, an idle port, a poll of a held STEP (which is in a session) and a command each keep R46. -/
theorem stepKeepsInvariants : Obligations.StepKeepsInvariants := by
  intro s t h e
  rcases step_cases s with ⟨_, _, e'⟩ | ⟨_, _, _, e'⟩ | ⟨_, _, e'⟩ | ⟨_, _, hm, e'⟩ | ⟨_, hm, e'⟩ | ⟨op, _, _, _, e'⟩
  · cases e'.symm.trans e; exact stateInv_hardReset _
  · cases e'.symm.trans e; exact stateInv_takeInput h
  · cases e'.symm.trans e; exact h
  · cases e'.symm.trans e; exact stateInv_waitReady (stateInv_takeInput h) (h.heldInSession hm)
  · cases e'.symm.trans e; exact stateInv_waitReady h (h.heldInSession hm)
  · exact exec_keeps_stateInv (decode op) (stateInv_takeInput h) (e'.symm.trans e)

/-! ### Reset, and every state reached from it -/

theorem channelWf_reset : ChannelWf Channel.reset := by
  unfold ChannelWf BufferWf mean
  decide

/-- R47 meets R46 whatever the inputs, which are not state of the core. -/
theorem stateInv_reset (port : List PortInput) (env : Env) :
    StateInv { State.reset with port := port, env := env } := by
  have hbank : BankWf State.reset := fun c => by rw [State.reset_chan]; exact channelWf_reset
  refine (stateInv_iff _).2 ⟨hbank.congr rfl, ?_, ?_⟩
  · simp [Selected, State.reset]
  · simp [HeldInSession, State.reset]

/-- Settles O31: the empty port and the empty answers of `State.reset` are among the inputs. -/
theorem resetMeetsInvariants : Obligations.ResetMeetsInvariants :=
  stateInv_reset State.reset.port State.reset.env

/-- What every step keeps, every run keeps. -/
theorem runFor_keeps {P : State → Prop} (hstep : ∀ s t, P s → step s = .next t → P t) {k : Nat} {s t : State}
    (hs : P s) (h : runFor k s = .next t) : P t := by
  induction k generalizing s with
  | zero => cases h; exact hs
  | succ k ih =>
    simp only [runFor] at h
    split at h
    case h_1 u hu => exact ih (hstep s u hs hu) h
    case h_2 => cases h
    case h_3 => cases h

/-- Settles O32: R46 holds at reset with any inputs, and every step keeps it. -/
theorem reachableStatesMeetInvariants : Obligations.ReachableStatesMeetInvariants :=
  fun port env _ _ h => runFor_keeps stepKeepsInvariants (stateInv_reset port env) h

/-- Settles O9: the fields of `State.reset`, and of `Channel.reset` for each channel. -/
theorem resetStateValues : Obligations.ResetStateValues := by
  refine ⟨fun c => ?_, rfl, rfl, rfl, rfl, rfl, rfl, rfl⟩
  rw [State.reset_chan]
  exact ⟨rfl, rfl, rfl, rfl⟩

/-! ### The snapshot -/

/-- Settles O45: SNAP copies every average, and item 3 of R46 says what each one is. -/
theorem snapshotHoldsMeans : Obligations.SnapshotHoldsMeans := by
  intro s h hc
  refine ⟨_, s.snapshot, exec_snap_complete s hc, ?_, fun c => ?_, rfl⟩
  · simp [State.done, hc]
  · rw [State.snapshot_avg]
    exact h.average c

end Sys2Proof.Safety

namespace Sys2Proof.Machine

open Sys2Proof.Safety

/-! ### Operations that do not see the bank -/

/-- The state with another bank. -/
def State.withBank (x : Vector (Channel capacity) channels) (s : State) : State := { s with chans := x }

/-- An operation on the state that neither reads nor writes the bank's channels. -/
def BankBlind (f : State → State) : Prop := ∀ x s, f (s.withBank x) = (f s).withBank x

theorem BankBlind.comp {f g : State → State} (hf : BankBlind f) (hg : BankBlind g) : BankBlind (f ∘ g) :=
  fun x s => (congrArg f (hg x s)).trans (hf x (g s))

theorem BankBlind.chans {f : State → State} (hf : BankBlind f) (s : State) : (f s).chans = s.chans :=
  calc (f s).chans = ((f s).withBank s.chans).chans := congrArg State.chans (hf s.chans s)
    _ = s.chans := rfl

theorem bankBlind_takeInput : BankBlind State.takeInput := fun _ _ => rfl
theorem bankBlind_select (b : Bool) : BankBlind (State.select b) := fun _ _ => rfl
theorem bankBlind_xfer16 (w : XferWord) : BankBlind (State.xfer16 w) := fun _ _ => rfl
theorem bankBlind_pollReady : BankBlind State.pollReady := fun _ _ => rfl
theorem bankBlind_hold : BankBlind State.hold := fun _ _ => rfl
theorem bankBlind_advance : BankBlind State.advance := fun _ _ => rfl
theorem bankBlind_openSession : BankBlind State.openSession := fun _ _ => rfl
theorem bankBlind_clearSession : BankBlind State.clearSession := fun _ _ => rfl
theorem bankBlind_respond (st : Status) (p : Option Snapshot) : BankBlind (State.respond st p) := fun _ _ => rfl

theorem bankBlind_stampOnWrap : BankBlind State.stampOnWrap := by
  intro x s
  simp only [State.stampOnWrap, apply_ite (State.withBank x)]
  rfl

theorem bankBlind_deadlineCheck (cfg : Config) : BankBlind (State.deadlineCheck cfg) := by
  intro x s
  simp only [State.deadlineCheck, apply_ite (State.withBank x)]
  rfl

theorem bankBlind_primingXfers (k : Nat) : BankBlind (State.primingXfers k) := by
  intro x s
  induction k generalizing s with
  | zero => rfl
  | succ k ih => exact ih (s.xfer16 .read)

theorem bankBlind_startSession (cfg : Config) : BankBlind (State.startSession cfg) :=
  (bankBlind_primingXfers cfg.primeXfers).comp
    ((bankBlind_xfer16 .begin).comp ((bankBlind_select true).comp bankBlind_openSession))

/-- What a performed STEP does after its RECORD (R134). -/
theorem bankBlind_finishStep (cfg : Config) :
    BankBlind (State.respond .ok none ∘ State.deadlineCheck cfg ∘ State.stampOnWrap ∘ State.advance) :=
  (bankBlind_respond .ok none).comp
    ((bankBlind_deadlineCheck cfg).comp (bankBlind_stampOnWrap.comp bankBlind_advance))

/-- What a step does, with another bank in the state it works on. -/
def Action.withBank (x : Vector (Channel capacity) channels) (a : Action) : Action :=
  match a with
  | .reset s => .reset (s.withBank x)
  | .idle s => .idle (s.withBank x)
  | .poll s => .poll (s.withBank x)
  | .run i s => .run i (s.withBank x)

/-- The port's rule does not see the bank (R88, R190). -/
theorem portAction_withBank (x : Vector (Channel capacity) channels) (s : State) :
    portAction (s.withBank x) = (portAction s).withBank x := by
  obtain ⟨_, _, _, _, _, _, micro, port, _, _, _⟩ := s
  rcases port with _ | ⟨_ | op | _, rest⟩ <;> cases micro <;> rfl

end Sys2Proof.Machine

namespace Sys2Proof.Safety

open Sys2Proof.Machine

/-! ### Two states that differ in the layout of the buffers only -/

/-- Equal contents and equal averages in every channel (R34, R36). -/
def SameReadings (s t : State) : Prop :=
  ∀ c : Fin channels, (s.chan c).buffer.contents = (t.chan c).buffer.contents ∧ (s.chan c).avg = (t.chan c).avg

/-- R46 item 2, for every channel. -/
def PointersWf (s : State) : Prop := ∀ c : Fin channels, BufferWf (s.chan c).buffer

theorem sameVisible_iff (s t : State) : SameVisible s t ↔ SameReadings s t ∧ t = s.withBank t.chans := Iff.rfl

theorem SameVisible.ch_eq {s t : State} (h : SameVisible s t) : t.ch = s.ch := (congrArg State.ch h.2 :)
theorem SameVisible.env_eq {s t : State} (h : SameVisible s t) : t.env = s.env := (congrArg State.env h.2 :)
theorem SameVisible.phase_eq {s t : State} (h : SameVisible s t) : t.phase = s.phase := (congrArg State.phase h.2 :)

/-- An operation that does not see the bank cannot tell the two states apart. -/
theorem SameVisible.map {f : State → State} (hf : BankBlind f) {s t : State} (h : SameVisible s t) :
    SameVisible (f s) (f t) := by
  obtain ⟨hread, ht⟩ := (sameVisible_iff s t).1 h
  refine (sameVisible_iff _ _).2 ⟨fun c => ?_, ?_⟩
  · rw [State.chan_congr (hf.chans s), State.chan_congr (hf.chans t)]
    exact hread c
  · calc f t = f (s.withBank t.chans) := congrArg f ht
      _ = (f s).withBank t.chans := hf t.chans s
      _ = (f s).withBank (f t).chans := by rw [hf.chans]

/-- BANK_INIT empties every buffer, wherever its pointers stood (R35, R100). -/
theorem SameVisible.bankInit {s t : State} (h : SameVisible s t) : SameVisible s.bankInit t.bankInit := by
  refine (sameVisible_iff _ _).2 ⟨fun c => by simp, ?_⟩
  rw [h.2]
  rfl

theorem SameVisible.hardReset {s t : State} (h : SameVisible s t) : SameVisible s.hardReset t.hardReset :=
  (h.bankInit.map bankBlind_clearSession).map
    (f := fun u => { u with cs := false, micro := .accepting }) fun _ _ => rfl

/-- RECORD appends to the contents, and the average is computed from the contents (R103, R106, R121). -/
theorem SameVisible.record {s t : State} (h : SameVisible s t) (hs : PointersWf s) (ht : PointersWf t)
    (cfg : Config) (c : Fin channels) (v : Sample) : SameVisible (s.record cfg c v) (t.record cfg c v) := by
  obtain ⟨hread, hframe⟩ := (sameVisible_iff s t).1 h
  refine (sameVisible_iff _ _).2 ⟨fun d => ?_, ?_⟩
  · by_cases hd : d = c
    · have hcontents : ((s.chan c).buffer.enqueue v).contents = ((t.chan c).buffer.enqueue v).contents := by
        rw [Buffer.enqueue_contents (hs c), Buffer.enqueue_contents (ht c), (hread c).1]
      rw [hd, State.record_chan_self, State.record_chan_self]
      exact ⟨hcontents, Buffer.average_congr cfg.accBits hcontents⟩
    · rw [State.record_chan_ne s cfg c d v hd, State.record_chan_ne t cfg c d v hd]
      exact hread d
  · calc t.record cfg c v = (s.withBank t.chans).record cfg c v := congrArg (State.record cfg c v) hframe
      _ = (s.record cfg c v).withBank (t.record cfg c v).chans := rfl

theorem SameVisible.snapshot_eq {s t : State} (h : SameVisible s t) : t.snapshot = s.snapshot := by
  obtain ⟨hread, hframe⟩ := (sameVisible_iff s t).1 h
  have havg : (fun c : Fin channels => (t.chan c).avg) = fun c => (s.chan c).avg := funext fun c => (hread c).2.symm
  have hts : t.ts = s.ts := (congrArg State.ts hframe :)
  simp only [State.snapshot, havg, hts]

theorem SameVisible.performStep {s t : State} (h : SameVisible s t) (hs : PointersWf s) (ht : PointersWf t)
    (cfg : Config) : SameVisible (s.performStep cfg) (t.performStep cfg) := by
  have hrecorded := (h.map (bankBlind_xfer16 .read)).record hs ht cfg s.ch (sampleOf s.env.xferAnswer)
  have hfinished := hrecorded.map (bankBlind_finishStep cfg)
  unfold State.performStep
  rw [h.ch_eq, h.env_eq]
  exact hfinished

theorem SameVisible.waitReady {s t : State} (h : SameVisible s t) (hs : PointersWf s) (ht : PointersWf t)
    (cfg : Config) : SameVisible (s.waitReady cfg) (t.waitReady cfg) := by
  have hpolled := h.map bankBlind_pollReady
  unfold State.waitReady
  rw [h.env_eq]
  split
  · exact hpolled.performStep hs ht cfg
  · exact hpolled.map bankBlind_hold

/-- Two outcomes that no observation can tell apart. -/
def SameOutcome (o p : Host.Outcome State Fault Refusal) : Prop :=
  ∃ s t, o = .next s ∧ p = .next t ∧ SameVisible s t

theorem SameVisible.outcome {s t : State} {o p : Host.Outcome State Fault Refusal} (h : SameVisible s t)
    (ho : o = .next s) (hp : p = .next t) : SameOutcome o p := ⟨s, t, ho, hp, h⟩

/-- A command takes the same case in both states, as phase and answers agree. -/
theorem SameVisible.exec {s t : State} (h : SameVisible s t) (hs : PointersWf s) (ht : PointersWf t) (i : Instr) :
    SameOutcome (exec i s) (exec i t) := by
  rcases exec_cases s i with ⟨rfl, e⟩ | ⟨rfl, e⟩ | ⟨rfl, hp, e⟩ | ⟨rfl, hp, e⟩ | ⟨rfl, e⟩ | ⟨rfl, hp, e⟩ | ⟨rfl, hp, e⟩ |
    ⟨hi, e⟩
  · exact (h.bankInit.map ((bankBlind_respond .ok none).comp
      ((bankBlind_select false).comp bankBlind_clearSession))).outcome e (exec_init t)
  · exact (h.map ((bankBlind_respond .ok none).comp (bankBlind_startSession Config.hw))).outcome e (exec_start t)
  · exact (h.waitReady hs ht Config.hw).outcome e (exec_step_sampling t (h.phase_eq.trans hp))
  · exact (h.map (bankBlind_respond .ignored none)).outcome e (exec_step_ignored t (h.phase_eq ▸ hp))
  · exact (h.map ((bankBlind_respond .ok none).comp (bankBlind_deadlineCheck Config.hw))).outcome e (exec_poll t)
  · have e' := exec_snap_complete t (h.phase_eq.trans hp)
    rw [h.snapshot_eq] at e'
    exact (h.map (bankBlind_respond .ok (some s.snapshot))).outcome e e'
  · exact (h.map (bankBlind_respond .notReady none)).outcome e (exec_snap_refused t (h.phase_eq ▸ hp))
  · refine (h.map (bankBlind_respond .illegal none)).outcome e ?_
    rcases hi with rfl | rfl | rfl
    · exact exec_reserved0 t
    · exact exec_reserved6 t
    · exact exec_reserved7 t

/-- Settles O33: the port asks for the same action in both states, and every operation is blind to the bank, or empties
it, or appends to contents and averages them. -/
theorem bufferLayoutUnobservable : Obligations.BufferLayoutUnobservable := by
  intro s t hs ht h
  obtain ⟨x, rfl⟩ : ∃ x, t = s.withBank x := ⟨t.chans, h.2⟩
  have htaken := h.map bankBlind_takeInput
  show SameOutcome (step s) (step (s.withBank x))
  rw [step, step, portAction_withBank]
  rcases portAction_cases s with ⟨_, _, e⟩ | ⟨_, _, _, e⟩ | ⟨_, _, e⟩ | ⟨_, _, _, e⟩ | ⟨_, _, e⟩ | ⟨op, _, _, _, e⟩ <;>
    rw [e]
  · exact htaken.hardReset.outcome rfl rfl
  · exact htaken.outcome rfl rfl
  · exact h.outcome rfl rfl
  · exact (htaken.waitReady hs ht Config.hw).outcome rfl rfl
  · exact (h.waitReady hs ht Config.hw).outcome rfl rfl
  · exact htaken.exec hs ht (decode op)

end Sys2Proof.Safety
end

section
/-! PROOFS of the family `20_memory.md`: the sample store by slot address (R61, R105), and that a step only appends to
the records (R70, R166). -/

namespace Sys2Proof.Machine

/-! ### Slot addresses (R61) -/

/-- Two slots with the same address are one slot. -/
theorem slotAddress_inj {c d : Fin channels} {i j : Fin capacity} :
    slotAddress c i = slotAddress d j ↔ c = d ∧ i = j := by
  have hi : i.val < 4 := i.isLt
  have hj : j.val < 4 := j.isLt
  simp only [Fin.ext_iff]
  show c.val * 4 + i.val = d.val * 4 + j.val ↔ _
  omega

/-- Every address is that of one slot of one channel. -/
theorem exists_eq_slotAddress (a : Fin (channels * capacity)) : ∃ c i, a = slotAddress c i :=
  ⟨⟨a.val / capacity, Nat.div_lt_of_lt_mul a.isLt⟩, ⟨a.val % capacity, Nat.mod_lt _ (by decide)⟩,
    Fin.ext (Nat.div_add_mod' a.val capacity).symm⟩

/-- A read at a slot's address is a read of that slot. -/
@[simp] theorem State.memRead_slotAddress (s : State) (c : Fin channels) (i : Fin capacity) :
    s.memRead (slotAddress c i) = (s.chan c).buffer.slots.get i := by
  have hi : i.val < 4 := i.isLt
  have hdiv : (c.val * 4 + i.val) / 4 = c.val := by omega
  have hmod : (c.val * 4 + i.val) % 4 = i.val := by omega
  simp only [State.memRead, slotAddress, hdiv, hmod]

/-- The sample store is part of the bank. -/
theorem State.memRead_congr {s t : State} (h : s.chans = t.chans) (a : Fin (channels * capacity)) :
    s.memRead a = t.memRead a := by
  simp only [State.memRead, State.chan, h]

/-! ### The sample store after a RECORD and after a STEP -/

/-- ENQUEUE on the slots: the value at the tail, every other slot as before (R101, R105). -/
theorem Buffer.enqueue_slots_get {n : Nat} (b : Buffer n) (v : Sample) (i : Fin n) :
    (b.enqueue v).slots.get i = if i = b.tl then v else b.slots.get i := by
  rw [(b.enqueue_slots_tl v).1, Vector.get_eq_getElem, Vector.get_eq_getElem, Vector.getElem_set]
  simp only [Fin.ext_iff, eq_comm]

/-- RECORD on the sample store: one address is written, that of the channel's tail slot (R105, R121). -/
theorem State.record_memRead (s : State) (cfg : Config) (c : Fin channels) (v : Sample)
    (a : Fin (channels * capacity)) :
    (s.record cfg c v).memRead a = if a = slotAddress c (s.chan c).buffer.tl then v else s.memRead a := by
  obtain ⟨d, i, rfl⟩ := exists_eq_slotAddress a
  rw [State.memRead_slotAddress, State.memRead_slotAddress]
  by_cases hdc : d = c
  · subst hdc
    simp [Buffer.enqueue_slots_get, slotAddress_inj]
  · simp [State.record_chan_ne s cfg c d v hdc, slotAddress_inj, hdc]

/-- A performed STEP leaves the store as its one RECORD does (R134). -/
theorem State.performStep_memRead (s : State) (cfg : Config) (a : Fin (channels * capacity)) :
    (s.performStep cfg).memRead a =
      if a = slotAddress s.ch (s.chan s.ch).buffer.tl then sampleOf s.env.xferAnswer else s.memRead a := by
  obtain ⟨hchans, -⟩ := s.performStep_fields cfg
  rw [State.memRead_congr hchans, State.record_memRead]

/-- A STEP of a session whose poll answers 1 is performed (R134, R135). -/
theorem exec_step_performed {s : State} (hp : s.phase = .sampling) (hr : s.env.readyAnswer = true) :
    exec .step s = .next (s.pollReady.performStep Config.hw) := by
  rw [exec_step_sampling s hp, State.waitReady, if_pos hr]

/-- Settles O14: the store after the performed STEP is that after one RECORD of the masked transfer result. -/
theorem stepWritesOneSlot : Obligations.StepWritesOneSlot := by
  intro s hp hr
  have hmem := s.pollReady.performStep_memRead Config.hw
  exact ⟨_, exec_step_performed hp hr, (hmem _).trans (if_pos rfl), fun a ha => (hmem a).trans (if_neg ha)⟩

/-! ### The event trace only grows (R166) -/

theorem State.stampOnWrap_trace_prefix (s : State) : s.trace <+: s.stampOnWrap.trace := by
  rcases s.stampOnWrap_cases with ⟨_, e⟩ | ⟨_, e⟩ <;> simp [e]

theorem State.deadlineCheck_trace_prefix (cfg : Config) (s : State) : s.trace <+: (s.deadlineCheck cfg).trace := by
  rcases s.deadlineCheck_cases cfg with ⟨_, e⟩ | ⟨_, _, e⟩ | ⟨_, _, e⟩ <;> simp [e]

theorem State.primingXfers_trace_prefix (k : Nat) (s : State) : s.trace <+: (s.primingXfers k).trace := by
  induction k generalizing s with
  | zero => exact List.prefix_rfl
  | succ k ih => exact (List.prefix_append _ _).trans (ih (s.xfer16 .read))

theorem State.startSession_trace_prefix (cfg : Config) (s : State) : s.trace <+: (s.startSession cfg).trace :=
  calc s.trace
    _ <+: ((s.openSession.select true).xfer16 .begin).trace := by simp
    _ <+: (s.startSession cfg).trace := State.primingXfers_trace_prefix cfg.primeXfers _

/-- A performed STEP appends its transfer, then what STAMP and DEADLINE_CHECK append (R134). -/
theorem State.performStep_trace_prefix (cfg : Config) (s : State) : s.trace <+: (s.performStep cfg).trace := by
  have hxfer : s.trace <+: (s.xfer16 .read).trace := List.prefix_append _ _
  have hstamp := State.stampOnWrap_trace_prefix
    ((s.xfer16 .read).record cfg s.ch (sampleOf s.env.xferAnswer)).advance
  exact hxfer.trans (hstamp.trans (State.deadlineCheck_trace_prefix cfg _))

theorem State.waitReady_trace_prefix (cfg : Config) (s : State) : s.trace <+: (s.waitReady cfg).trace := by
  have hpoll : s.trace <+: s.pollReady.trace := List.prefix_append _ _
  rcases s.waitReady_cases cfg with ⟨_, e⟩ | ⟨_, e⟩ <;> rw [e]
  · exact hpoll.trans (s.pollReady.performStep_trace_prefix cfg)
  · exact hpoll

/-- Every command ends in a next state, whose trace extends the old one (R130, R166). -/
theorem exec_next_trace_prefix (i : Instr) (s : State) : ∃ t, exec i s = .next t ∧ s.trace <+: t.trace := by
  rcases exec_cases s i with ⟨_, e⟩ | ⟨_, e⟩ | ⟨_, _, e⟩ | ⟨_, _, e⟩ | ⟨_, e⟩ | ⟨_, _, e⟩ | ⟨_, _, e⟩ | ⟨_, e⟩ <;>
    refine ⟨_, e, ?_⟩
  · exact List.prefix_append _ _
  · exact s.startSession_trace_prefix Config.hw
  · exact s.waitReady_trace_prefix Config.hw
  · exact List.prefix_rfl
  · exact s.deadlineCheck_trace_prefix Config.hw
  · exact List.prefix_rfl
  · exact List.prefix_rfl
  · exact List.prefix_rfl

/-- Every step ends in a next state, whose trace extends the old one: reset and an idle port leave no event (R190), a
poll of a held STEP and an accepted command append theirs. -/
theorem step_next_trace_prefix (s : State) : ∃ t, step s = .next t ∧ s.trace <+: t.trace := by
  rcases step_cases s with ⟨_, _, e⟩ | ⟨_, _, _, e⟩ | ⟨_, _, e⟩ | ⟨_, _, _, e⟩ | ⟨_, _, e⟩ | ⟨op, _, _, _, e⟩
  · exact ⟨_, e, List.prefix_rfl⟩
  · exact ⟨_, e, List.prefix_rfl⟩
  · exact ⟨_, e, List.prefix_rfl⟩
  · exact ⟨_, e, s.takeInput.waitReady_trace_prefix Config.hw⟩
  · exact ⟨_, e, s.waitReady_trace_prefix Config.hw⟩
  · rw [e]
    exact exec_next_trace_prefix (decode op) s.takeInput

/-- A step that gives at most one response only appends to the responses. -/
theorem State.RespondsAtMostOnce.exists_append {s t : State} (h : s.RespondsAtMostOnce t) :
    ∃ rs, t.responses = s.responses ++ rs := by
  rcases h with e | ⟨r, e, -⟩
  · exact ⟨[], by rw [e, List.append_nil]⟩
  · exact ⟨[r], e⟩

/-- Settles O51: the trace grows operation by operation, and at most one response is appended. -/
theorem recordsOnlyGrow : Obligations.RecordsOnlyGrow := by
  intro s
  obtain ⟨t, hstep, es, htrace⟩ := step_next_trace_prefix s
  exact ⟨t, hstep, ⟨es, htrace.symm⟩, (step_respondsAtMostOnce hstep).exists_append⟩

end Sys2Proof.Machine
end

section
/-! PROOFS of the family `30_encoding.md`: the opcode map (R80, R81), the snapshot payload (R84), and the command port
with nothing presented or with a STEP held (R88, R135). -/

namespace Sys2Proof

/-! ### The opcode map (R81) -/

/-- Every command's own word decodes to it. -/
theorem decodeTableWord_encode (i : Instr) : decodeTableWord 3 (encode i).toNat = some i := by
  cases i
  case reserved0 => exact Laws.Encoding.reserved0.2
  case init => exact Laws.Encoding.init.2
  case start => exact Laws.Encoding.start.2
  case step => exact Laws.Encoding.step.2
  case poll => exact Laws.Encoding.poll.2
  case snap => exact Laws.Encoding.snap.2
  case reserved6 => exact Laws.Encoding.reserved6.2
  case reserved7 => exact Laws.Encoding.reserved7.2

/-- A 3-bit word read as a row's word is that word decoded: no bit is dropped, and the number is never refused (R80). -/
theorem decodeTableWord_toNat (w : CmdOp) : decodeTableWord 3 w.toNat = some (decode w) := by
  have hmod : w.toNat % 2 ^ 3 = w.toNat := Nat.mod_eq_of_lt w.isLt
  have hok : commandWordOk w.toNat = true := decide_eq_true w.isLt
  rw [decodeTableWord, hmod, decodeNumber, if_pos hok, BitVec.ofNat_toNat, BitVec.setWidth_eq]

theorem decode_encode (i : Instr) : decode (encode i) = i :=
  Option.some.inj ((decodeTableWord_toNat (encode i)).symm.trans (decodeTableWord_encode i))

/-- The eight words, one by one: the map of R81 has a row for each. -/
theorem encode_decode (w : CmdOp) : encode (decode w) = w := by
  revert w
  decide

/-- A number of 8 or more is no command word (log 16). -/
theorem decodeNumber_of_ge {w : Nat} (h : 8 ≤ w) : decodeNumber w = .error .widerThanCommandWord := by
  have hno : ¬commandWordOk w = true := by simpa [commandWordOk] using h
  rw [decodeNumber, if_neg hno]

/-- Settles O1: the number in each row is the command's own word. -/
theorem opcodeMapDecodesEightWords : Obligations.OpcodeMapDecodesEightWords :=
  ⟨decodeTableWord_encode .reserved0, decodeTableWord_encode .init, decodeTableWord_encode .start,
    decodeTableWord_encode .step, decodeTableWord_encode .poll, decodeTableWord_encode .snap,
    decodeTableWord_encode .reserved6, decodeTableWord_encode .reserved7, fun _ => decodeNumber_of_ge⟩

/-- Settles O2: one direction by command, the other by word. -/
theorem commandWordRoundTrip : Obligations.CommandWordRoundTrip :=
  ⟨fun i _ => decode_encode i, encode_decode⟩

end Sys2Proof

namespace Sys2Proof.Machine

/-! ### The snapshot payload (R84) -/

/-- Sixteen payload wires from `16k` up carry lane `k`. -/
theorem Snapshot.payload_lane (p : Snapshot) (k : Fin 18) : p.payload.extractLsb' (16 * k.val) 16 = p.lane k := by
  have hlen : (List.ofFn p.lane).length = 18 := List.length_ofFn
  have hwires : 16 * (List.ofFn p.lane).length = 288 := by rw [hlen]
  have hfits := hwires ▸ packLanes_lt (List.ofFn p.lane)
  have hk : k.val < (List.ofFn p.lane).length := k.isLt.trans_eq hlen.symm
  rw [Snapshot.payload, extract_packLanes 288 _ hfits k.val hk, List.getElem_ofFn]

/-- The lane of channel `k`: `{0b0000, avg[k]}`. -/
theorem Snapshot.payload_avg (p : Snapshot) (k : Fin channels) :
    p.payload.extractLsb' (16 * k.val) 16 = (p.avg.get k).setWidth 16 :=
  (p.payload_lane (k.castLE (by decide))).trans (dif_pos k.isLt)

/-- Lanes 17 and 16 are the two halves of `ts`. -/
theorem Snapshot.payload_ts (p : Snapshot) : p.payload.extractLsb' 256 32 = p.ts :=
  calc p.payload.extractLsb' 256 32
    _ = p.payload.extractLsb' 272 16 ++ p.payload.extractLsb' 256 16 :=
      (BitVec.extractLsb'_append_extractLsb'_eq_extractLsb' (start₁ := 256) (len₁ := 16) (len₂ := 16) rfl).symm
    _ = p.ts.extractLsb' 16 16 ++ p.ts.extractLsb' 0 16 :=
      congrArg₂ (· ++ ·) (p.payload_lane 17) (p.payload_lane 16)
    _ = p.ts.extractLsb' 0 32 := BitVec.extractLsb'_append_extractLsb'_eq_extractLsb' rfl
    _ = p.ts := BitVec.extractLsb'_eq_self

/-- Settles O3: the wires are read lane by lane. -/
theorem snapshotPayloadLayout : Obligations.SnapshotPayloadLayout :=
  fun p => ⟨p.payload_avg, p.payload_ts⟩

/-- The low twelve wires of a channel's lane carry its average whole. -/
theorem Snapshot.payload_sample (p : Snapshot) (k : Fin channels) :
    p.payload.extractLsb' (16 * k.val) Config.hw.sampleBits = p.avg.get k :=
  calc p.payload.extractLsb' (16 * k.val) 12
    _ = (p.payload.extractLsb' (16 * k.val) 16).setWidth 12 := (BitVec.setWidth_extractLsb'_of_le (by decide)).symm
    _ = ((p.avg.get k).setWidth 16).setWidth 12 := by rw [p.payload_avg k]
    _ = p.avg.get k := by rw [BitVec.setWidth_setWidth_of_le _ (by decide), BitVec.setWidth_eq]

/-- Settles O4: by the layout, each average and `ts` is read back from the wires that carry it. -/
theorem snapshotPayloadReadsBack : Obligations.SnapshotPayloadReadsBack := by
  intro p
  have havg : Vector.ofFn (fun k : Fin channels => p.payload.extractLsb' (16 * k.val) Config.hw.sampleBits) =
      p.avg := by
    ext k hk
    rw [Vector.getElem_ofFn, p.payload_sample ⟨k, hk⟩, Vector.get_eq_getElem]
  rw [unpackPayload, havg, p.payload_ts]

/-! ### The port, case by case (R88), and what a step then does -/

section Port

variable {s : State} {rest : List PortInput}

theorem State.takeInput_of_cons {x : PortInput} (h : s.port = x :: rest) : s.takeInput = { s with port := rest } := by
  rw [State.takeInput, h, List.tail_cons]

theorem portAction_accepting_nil (hm : s.micro = .accepting) (h : s.port = []) : portAction s = .idle s := by
  simp only [portAction, hm, h]

theorem portAction_accepting_idle (hm : s.micro = .accepting) (h : s.port = .idle :: rest) :
    portAction s = .idle { s with port := rest } := by
  simp only [portAction, hm, h, State.takeInput_of_cons h]

theorem portAction_wait_nil (hm : s.micro = .wait) (h : s.port = []) : portAction s = .poll s := by
  simp only [portAction, hm, h]

/-- The presented command stays on the port, whatever stands behind it. -/
theorem portAction_wait_command {op : CmdOp} (hm : s.micro = .wait) (h : s.port = .command op :: rest) :
    portAction s = .poll s := by
  simp only [portAction, hm, h]

theorem portAction_wait_idle (hm : s.micro = .wait) (h : s.port = .idle :: rest) :
    portAction s = .poll { s with port := rest } := by
  simp only [portAction, hm, h, State.takeInput_of_cons h]

theorem step_of_portAction_idle {t : State} (h : portAction s = .idle t) : step s = .next t := by
  rw [step, h]

/-- A poll of a held STEP is STEP again, where a session is on (R135). -/
theorem step_of_portAction_poll {t : State} (hp : t.phase = .sampling) (h : portAction s = .poll t) :
    step s = exec .step t := by
  rw [step, h, exec_step_sampling t hp]

end Port

/-- Settles O6: the port asks for nothing, with an idle entry taken off where there is one. -/
theorem nothingPresentedNothingHappens : Obligations.NothingPresentedNothingHappens :=
  fun _ hm =>
    ⟨fun h => step_of_portAction_idle (portAction_accepting_nil hm h),
      fun _ h => step_of_portAction_idle (portAction_accepting_idle hm h)⟩

/-- Settles O7: the port asks for a poll in all three cases, and only an idle entry is taken off. -/
theorem heldStepKeepsPolling : Obligations.HeldStepKeepsPolling :=
  fun _ hm hp =>
    ⟨fun h => step_of_portAction_poll hp (portAction_wait_nil hm h),
      fun _ _ h => step_of_portAction_poll hp (portAction_wait_command hm h),
      fun _ h => step_of_portAction_poll hp (portAction_wait_idle hm h)⟩

end Sys2Proof.Machine
end

section
/-! PROOFS of the family `40_buffer.md`: the pointer form of the buffer and its list form (R106), the accumulator and
the mean it yields (R103, R104), and the running-sum form (R109). -/

namespace Sys2Proof

/-- R5's width has room for `N` samples of `SAMPLE_MAX` each (R6). -/
theorem accBits_admitted (n : Nat) : n * 4095 < 2 ^ accBits n := by
  have hle := le_two_pow_ceilLog2 n
  have hpos := Nat.two_pow_pos (ceilLog2 n)
  rw [accBits, Nat.pow_add]
  omega

end Sys2Proof

namespace Sys2Proof.Safety

open Sys2Proof.Machine

/-! ### The list form: bounded append and mean -/

theorem pushBounded_below {n : Nat} {l : List Sample} (h : l.length < n) (v : Sample) :
    pushBounded n l v = l ++ [v] := if_pos h

theorem pushBounded_full {n : Nat} {l : List Sample} (h : l.length = n) (v : Sample) :
    pushBounded n l v = l.drop 1 ++ [v] := if_neg h.not_lt

/-- Keeping the last `n` values commutes with one more value arriving. -/
theorem pushBounded_drop {n : Nat} (hn : 0 < n) (vs : List Sample) (v : Sample) :
    pushBounded n (vs.drop (vs.length - n)) v = (vs ++ [v]).drop ((vs ++ [v]).length - n) := by
  rw [List.length_append, List.length_singleton, List.drop_append_of_le_length (by omega)]
  rcases Nat.lt_or_ge vs.length n with hlt | hge
  · rw [pushBounded_below (by simp; omega), Nat.sub_eq_zero_of_le hlt.le, Nat.sub_eq_zero_of_le hlt]
  · rw [pushBounded_full (by simp; omega), List.drop_drop, Nat.sub_add_comm hge]

theorem mean_of_ne_nil {l : List Sample} (h : l ≠ []) : mean l = (l.map BitVec.toNat).sum / l.length := if_neg h

/-- Rounding down does not take the mean below a whole number that bounds every element from below. -/
theorem le_mean {l : List Sample} {lo : Nat} (hne : l ≠ []) (h : ∀ v ∈ l, lo ≤ v.toNat) : lo ≤ mean l := by
  have hsum : l.length * lo ≤ (l.map BitVec.toNat).sum := by
    simpa using List.card_nsmul_le_sum (l.map BitVec.toNat) lo (List.forall_mem_map.mpr h)
  rw [mean_of_ne_nil hne, Nat.le_div_iff_mul_le (List.length_pos_iff.mpr hne), Nat.mul_comm]
  exact hsum

theorem mean_le_of_forall {l : List Sample} {hi : Nat} (h : ∀ v ∈ l, v.toNat ≤ hi) : mean l ≤ hi := by
  rcases eq_or_ne l [] with rfl | hne
  · exact Nat.zero_le hi
  · rw [mean_of_ne_nil hne]
    apply Nat.div_le_of_le_mul
    simpa using List.sum_le_card_nsmul (l.map BitVec.toNat) hi (List.forall_mem_map.mpr h)

end Sys2Proof.Safety

namespace Sys2Proof.Machine

open Sys2Proof.Safety

/-! ### The pointer form refines the list form -/

section Buffer

variable {n : Nat} {b : Buffer n}

theorem Buffer.contents_length_le : b.contents.length ≤ n := by
  rw [Buffer.contents_length]
  exact Nat.le_of_lt_succ b.cnt.isLt

theorem Buffer.enqueueAll_concat (vs : List Sample) (v : Sample) :
    enqueueAll b (vs ++ [v]) = (enqueueAll b vs).enqueue v := by simp [enqueueAll]

theorem Buffer.enqueueAll_wf (hb : BufferWf b) (vs : List Sample) : BufferWf (enqueueAll b vs) := by
  induction vs generalizing b with
  | nil => exact hb
  | cons v vs ih => exact ih (Buffer.enqueue_wf hb v)

/-- From empty, the contents are the last `N` of the values enqueued (R106). -/
theorem Buffer.enqueueAll_init_contents (vs : List Sample) :
    (enqueueAll b.init vs).contents = vs.drop (vs.length - n) := by
  induction vs using List.reverseRecOn with
  | nil => simp [enqueueAll]
  | append_singleton vs v ih =>
    rw [Buffer.enqueueAll_concat, Buffer.enqueue_contents (Buffer.enqueueAll_wf Buffer.init_wf vs), ih,
      pushBounded_drop b.hd.pos]

end Buffer

/-- Settles O24: ENQUEUE is the bounded append of the list form, in each of its two cases. -/
theorem bufferContentsLaws : Obligations.BufferContentsLaws := by
  intro n w b hw hb
  have henq := Buffer.enqueue_contents hb
  refine ⟨Buffer.init_contents, fun v hlt => ?_, fun v hfull => ?_, Buffer.average_toNat hw,
    fun v => Buffer.contents_length_le, Buffer.init_wf, Buffer.enqueue_wf hb⟩
  · rw [henq, pushBounded_below hlt]
  · rw [henq, pushBounded_full hfull]

/-- Settles O25: the average is the mean of the contents, and these are the last `N` values. -/
theorem lastCapacityValuesKept : Obligations.LastCapacityValuesKept := by
  intro n w b vs hw
  have hcontents := Buffer.enqueueAll_init_contents (b := b) vs
  exact ⟨hcontents, by rw [Buffer.average_toNat hw, hcontents]⟩

/-- Settles O26: the average is the mean of the contents, which lies between any bounds of the elements. -/
theorem accumulatorExactAndMeanBounded : Obligations.AccumulatorExactAndMeanBounded := by
  refine ⟨accBits_admitted, fun n w b hw => ⟨Buffer.accumulate_toNat hw, ?_⟩⟩
  rw [Buffer.average_toNat hw]
  exact ⟨fun _ => le_mean, fun _ => mean_le_of_forall⟩

/-- Settles O27: the two cases of the mean. -/
theorem averageIsTruncatedMean : Obligations.AverageIsTruncatedMean := by
  intro n w b hw
  refine ⟨fun hnil => ?_, fun hne => ?_⟩
  · rw [Buffer.average, if_pos (b.contents_eq_nil_iff.mp hnil)]
  · rw [Buffer.average_toNat hw, mean_of_ne_nil hne]

/-! ### The running-sum form (R109)

The sum is compared with the accumulator modulo `2 ^ w`, where ENQUEUE's subtraction is exact at every width; that
neither wraps at an admitted width is then R104 alone. -/

section RunningSum

variable {n w : Nat} {b : Buffer n}

/-- The accumulator is a sum modulo `2 ^ w`. -/
theorem Buffer.accumulate_eq_sum : b.accumulate w = (b.contents.map (BitVec.setWidth w)).sum := by
  rw [Buffer.accumulate, List.sum_eq_foldl, List.foldl_map]

/-- The slot at the head holds the oldest element. -/
theorem Buffer.contents_eq_head_cons (h : 0 < b.cnt.val) :
    b.contents = b.slots.get b.hd :: b.contents.drop 1 := by
  have hlen : 0 < b.contents.length := by rwa [Buffer.contents_length]
  have hslot : b.slotIndex 0 = b.hd := Fin.ext (Nat.mod_eq_of_lt b.hd.isLt)
  rw [← hslot, ← Buffer.contents_getElem b 0 hlen, List.cons_getElem_drop_succ, List.drop_zero]

theorem Buffer.accumulate_init : b.init.accumulate w = 0 := by simp [Buffer.accumulate]

theorem Buffer.accumulate_enqueue_below (hb : BufferWf b) (h : b.cnt.val < n) (v : Sample) :
    (b.enqueue v).accumulate w = b.accumulate w + v.setWidth w := by
  have hlt : b.contents.length < n := by rwa [Buffer.contents_length]
  simp only [Buffer.accumulate_eq_sum, Buffer.enqueue_contents hb, pushBounded_below hlt, List.map_append,
    List.map_singleton, List.sum_append, List.sum_singleton]

/-- At capacity the oldest element's share leaves the accumulator and the new one's enters. -/
theorem Buffer.accumulate_enqueue_full (hb : BufferWf b) (h : b.cnt.val = n) (v : Sample) :
    (b.enqueue v).accumulate w = b.accumulate w - (b.slots.get b.hd).setWidth w + v.setWidth w := by
  have hlen : b.contents.length = n := by rwa [Buffer.contents_length]
  have hhead := b.contents_eq_head_cons (b.hd.pos.trans_eq h.symm)
  have hold : b.accumulate w =
      (b.slots.get b.hd).setWidth w + ((b.contents.drop 1).map (BitVec.setWidth w)).sum := by
    rw [Buffer.accumulate_eq_sum, ← List.sum_cons, ← List.map_cons, ← hhead]
  rw [hold, add_sub_cancel_left, Buffer.accumulate_eq_sum, Buffer.enqueue_contents hb, pushBounded_full hlen,
    List.map_append, List.sum_append, List.map_singleton, List.sum_singleton]

/-- What the running-sum form keeps: consistent pointers, and a sum equal to the accumulator of the normative form. -/
structure SumBuffer.Tracks (b : SumBuffer n w) : Prop where
  /-- The pointers are consistent (R46 item 2). -/
  wf : BufferWf b.buffer
  /-- `sum[c]` is what AVERAGE's loop would compute. -/
  sum_eq : b.sum = b.buffer.accumulate w

theorem SumBuffer.init_tracks (b : SumBuffer n w) : b.init.Tracks :=
  ⟨Buffer.init_wf, Buffer.accumulate_init.symm⟩

theorem SumBuffer.enqueue_tracks {b : SumBuffer n w} (h : b.Tracks) (v : Sample) : (b.enqueue v).Tracks := by
  refine ⟨Buffer.enqueue_wf h.wf v, ?_⟩
  rcases Nat.lt_or_eq_of_le (Nat.le_of_lt_succ b.buffer.cnt.isLt) with hlt | hfull
  · simp only [SumBuffer.enqueue, if_neg hlt.ne, h.sum_eq, Buffer.accumulate_enqueue_below h.wf hlt]
  · simp only [SumBuffer.enqueue, if_pos hfull, h.sum_eq, Buffer.accumulate_enqueue_full h.wf hfull]

theorem applySumOp_buffer (b : SumBuffer n w) (o : BufferOp) : (applySumOp b o).buffer = applyOp b.buffer o := by
  cases o <;> rfl

theorem applySumOp_tracks {b : SumBuffer n w} (h : b.Tracks) (o : BufferOp) : (applySumOp b o).Tracks := by
  cases o with
  | init => exact b.init_tracks
  | enqueue v => exact SumBuffer.enqueue_tracks h v

theorem foldl_applySumOp_buffer (b : SumBuffer n w) (ops : List BufferOp) :
    (ops.foldl applySumOp b).buffer = ops.foldl applyOp b.buffer := by
  induction ops generalizing b with
  | nil => rfl
  | cons o ops ih => rw [List.foldl_cons, List.foldl_cons, ih, applySumOp_buffer]

theorem foldl_applySumOp_tracks {b : SumBuffer n w} (h : b.Tracks) (ops : List BufferOp) :
    (ops.foldl applySumOp b).Tracks := by
  induction ops generalizing b with
  | nil => exact h
  | cons o ops ih => exact ih (applySumOp_tracks h o)

/-- With the accumulator in the sum, both forms divide the same number by the same count. -/
theorem SumBuffer.average_of_tracks {b : SumBuffer n w} (h : b.Tracks) : b.average = b.buffer.average w := by
  rw [SumBuffer.average, Buffer.average, h.sum_eq]

end RunningSum

/-- Settles O29: after any operations the sum is the accumulator, which at an admitted width is exact. -/
theorem runningSumRefinesBuffer : Obligations.RunningSumRefinesBuffer := by
  intro n w b ops hw
  have htracks := foldl_applySumOp_tracks b.init_tracks ops
  refine ⟨foldl_applySumOp_buffer b.init ops, SumBuffer.average_of_tracks htracks, ?_⟩
  rw [htracks.sum_eq, Buffer.accumulate_toNat hw]

end Sys2Proof.Machine
end

section
/-! PROOFS of the family `41_bank.md`: what RECORD writes (R121), and who writes the bank and `ts` (R124). -/

namespace Sys2Proof.Machine

/-! ### RECORD (R121) -/

/-- Settles O28: the channel's buffer is enqueued and its average computed from the result; a channel of another index
is another slot of the bank. -/
theorem recordTouchesOneChannel : Obligations.RecordTouchesOneChannel := by
  intro cfg s c v hacc hwf
  rw [State.record_chan_self]
  exact ⟨Buffer.enqueue_contents hwf v, Buffer.average_toNat hacc, fun d hd => s.record_chan_ne cfg c d v hd, rfl⟩

/-! ### Who writes the bank and `ts` (R124) -/

/-- `t` has the bank and the session timestamp of `s`. -/
def State.KeepsBank (s t : State) : Prop := t.chans = s.chans ∧ t.ts = s.ts

/-- START writes nothing of the bank, and no `ts` (R133). -/
theorem State.startSession_keepsBank (cfg : Config) (s : State) : s.KeepsBank (s.startSession cfg) := by
  obtain ⟨e, tr, h⟩ := State.primingXfers_eq cfg.primeXfers ((s.openSession.select true).xfer16 .begin)
  simp [State.KeepsBank, State.startSession, h]

theorem State.deadlineCheck_keepsBank (cfg : Config) (s : State) : s.KeepsBank (s.deadlineCheck cfg) :=
  ⟨s.deadlineCheck_chans cfg, s.deadlineCheck_ts cfg⟩

/-- A poll that answers 0 holds the STEP, which writes nothing of the bank (R135). -/
theorem State.waitReady_keepsBank_or_ready (cfg : Config) (s : State) :
    s.KeepsBank (s.waitReady cfg) ∨ s.env.readyAnswer = true := by
  rcases s.waitReady_cases cfg with ⟨hready, _⟩ | ⟨_, e⟩
  · exact .inr hready
  · rw [e]
    exact .inl ⟨rfl, rfl⟩

/-- Among the commands, only INIT and a STEP of a session whose poll answers 1 write the bank or `ts`. -/
theorem exec_keepsBank_or {i : Instr} {s t : State} (h : exec i s = .next t) :
    s.KeepsBank t ∨ i = .init ∨ (i = .step ∧ s.phase = .sampling ∧ s.env.readyAnswer = true) := by
  rcases exec_cases s i with ⟨hi, _⟩ | ⟨_, e⟩ | ⟨hi, hp, e⟩ | ⟨_, _, e⟩ | ⟨_, e⟩ | ⟨_, _, e⟩ | ⟨_, _, e⟩ | ⟨_, e⟩
  · exact .inr (.inl hi)
  all_goals cases e.symm.trans h
  · exact .inl (s.startSession_keepsBank Config.hw)
  · exact (s.waitReady_keepsBank_or_ready Config.hw).imp_right fun hready => .inr ⟨hi, hp, hready⟩
  · exact .inl ⟨rfl, rfl⟩
  · exact .inl (s.deadlineCheck_keepsBank Config.hw)
  · exact .inl ⟨rfl, rfl⟩
  · exact .inl ⟨rfl, rfl⟩
  · exact .inl ⟨rfl, rfl⟩

/-- A command has one command word (R81). -/
theorem eq_encode_of_decode_eq {op : CmdOp} {i : Instr} (h : decode op = i) : op = encode i := by
  rw [← h, encode_decode]

/-- Settles O36: an idle port and a poll that answers 0 keep the bank and `ts`; a held STEP is in a session by
hypothesis, and an accepted one is ignored outside a session (R143, R144). -/
theorem bankWrittenOnlyByStepInitReset : Obligations.BankWrittenOnlyByStepInitReset := by
  intro s t hheld hstep hchange
  have hwritten : ¬ s.KeepsBank t := fun hkeeps => hchange.elim (· hkeeps.1) (· hkeeps.2)
  rcases step_cases s with ⟨rest, hport, _⟩ | ⟨_, _, _, e⟩ | ⟨_, _, e⟩ | ⟨_, _, hwait, e⟩ | ⟨_, hwait, e⟩ |
    ⟨op, rest, hport, hacc, e⟩
  · exact .inl ⟨rest, hport⟩
  · cases e.symm.trans hstep
    exact absurd ⟨rfl, rfl⟩ hwritten
  · cases e.symm.trans hstep
    exact absurd ⟨rfl, rfl⟩ hwritten
  · cases e.symm.trans hstep
    have hready := (s.takeInput.waitReady_keepsBank_or_ready Config.hw).resolve_left hwritten
    exact .inr (.inr ⟨hheld hwait, hready, .inl hwait⟩)
  · cases e.symm.trans hstep
    have hready := (s.waitReady_keepsBank_or_ready Config.hw).resolve_left hwritten
    exact .inr (.inr ⟨hheld hwait, hready, .inl hwait⟩)
  · rcases (exec_keepsBank_or (e.symm.trans hstep)).resolve_left hwritten with hinit | ⟨hi, hp, hready⟩
    · cases eq_encode_of_decode_eq hinit
      exact .inr (.inl ⟨hacc, rest, hport⟩)
    · cases eq_encode_of_decode_eq hi
      exact .inr (.inr ⟨hp, hready, .inr ⟨rest, hport⟩⟩)

end Sys2Proof.Machine
end

section
/-! PROOFS of the family `42_sequencer.md`: the meanings of the commands (R131 to R144), the ready wait and its end
(R135), completion (R146, R149), and the count of transfers and of channels over a session (R147, R148). -/

namespace Sys2Proof.Machine

/-! ### START (R133) -/

/-- The priming transfers are `k` transfers of the read word, one event each (R133, R166). -/
theorem State.primingXfers_reads (k : Nat) (s : State) :
    ∃ (rs : List XferBits) (e : Env), rs.length = k ∧
      s.primingXfers k = { s with env := e, trace := s.trace ++ rs.map (Event.xfer .read) } := by
  induction k generalizing s with
  | zero => exact ⟨[], s.env, rfl, by simp [State.primingXfers]⟩
  | succ k ih =>
    obtain ⟨rs, e, hlen, h⟩ := ih (s.xfer16 .read)
    exact ⟨s.env.xferAnswer :: rs, e, by rw [List.length_cons, hlen], by simp [State.primingXfers, h]⟩

/-- Settles O20: the three events before the priming transfers, and then theirs. -/
theorem startTransfersForEveryPrimeCount : Obligations.StartTransfersForEveryPrimeCount := by
  intro cfg s
  obtain ⟨rs, e, hlen, h⟩ :=
    State.primingXfers_reads cfg.primeXfers ((s.openSession.select true).xfer16 .begin)
  refine ⟨rs, hlen, ?_⟩
  rw [State.startSession, h]
  simp

/-- At this hardware's `PRIME_XFERS` START makes one priming transfer. -/
theorem State.startSession_hw (s : State) :
    s.startSession Config.hw = ((s.openSession.select true).xfer16 .begin).xfer16 .read := rfl

/-- Settles O11: START writes the session, then makes its two transfers. -/
theorem startOpensSession : Obligations.StartOpensSession := by
  intro s
  refine ⟨_, exec_start s, ?_⟩
  rw [State.startSession_hw]
  simp [State.done]

/-! ### The completion flag, and a response that is a command's only effect -/

theorem State.done_of_complete {s : State} (h : s.phase = .complete) : s.done = true := decide_eq_true h

theorem State.done_of_ne_complete {s : State} (h : s.phase ≠ .complete) : s.done = false := decide_eq_false h

theorem State.respond_eq {s : State} {b : Bool} (h : s.done = b) (st : Status) (p : Option Snapshot) :
    s.respond st p = { s with
      micro := .accepting, responses := s.responses ++ [{ status := st, done := b, snap := p }] } := by
  rw [State.respond, h]

/-! ### DEADLINE_CHECK, case by case (R139) -/

section Deadline

variable {s : State} {cfg : Config}

theorem State.deadlineCheck_outside (h : s.phase ≠ .sampling) : s.deadlineCheck cfg = s := if_neg h

/-- In a session the check reads the clock once, and completes exactly when the window has elapsed. -/
theorem State.deadlineCheck_sampling (h : s.phase = .sampling) :
    s.deadlineCheck cfg =
      if cfg.windowMs ≤ s.elapsed.toNat then (s.readClock.setPhase .complete).select false else s.readClock := by
  simp only [State.deadlineCheck, if_pos h, deadlineMet, decide_eq_true_eq]

theorem State.deadlineCheck_due (h : s.phase = .sampling) (hd : cfg.windowMs ≤ s.elapsed.toNat) :
    s.deadlineCheck cfg = { s with
      phase := .complete, cs := false, env := s.env.afterNow
      trace := s.trace ++ [.now s.env.nowAnswer, .select false] } := by
  rw [State.deadlineCheck_sampling h, if_pos hd]
  simp [State.readClock, State.setPhase, State.select]

theorem State.deadlineCheck_early (h : s.phase = .sampling) (hd : s.elapsed.toNat < cfg.windowMs) :
    s.deadlineCheck cfg = { s with env := s.env.afterNow, trace := s.trace ++ [.now s.env.nowAnswer] } := by
  rw [State.deadlineCheck_sampling h, if_neg hd.not_ge, State.readClock]

end Deadline

/-- Settles O21: by phase, and in a session by the elapsed time. -/
theorem deadlineCheckForEveryWindow : Obligations.DeadlineCheckForEveryWindow :=
  fun _ _ => ⟨State.deadlineCheck_outside, State.deadlineCheck_due, State.deadlineCheck_early⟩

/-! ### The sample of a transfer result, and elapsed time (R136, R150) -/

theorem sampleOf_toNat (r : XferBits) : (sampleOf r).toNat = r.toNat % 4096 := by
  rw [sampleOf, BitVec.extractLsb'_toNat, Nat.shiftRight_zero]; rfl

/-- Settles O22: a sample is its number, which is the result modulo 4096. -/
theorem sampleIsLowTwelveBits : Obligations.SampleIsLowTwelveBits :=
  fun r => ⟨sampleOf_toNat r, fun q h => BitVec.eq_of_toNat_eq (by rw [sampleOf_toNat, sampleOf_toNat, h])⟩

/-- Settles O23: the difference modulo `2 ^ 32` of two times is their difference, which is below it. -/
theorem elapsedIsTrueTimeBelowWrap : Obligations.ElapsedIsTrueTimeBelowWrap := by
  intro s start now hle hlt hstart hnow
  have h := BitVec.toNat_sub (BitVec.ofNat 32 now) (BitVec.ofNat 32 start)
  rw [BitVec.toNat_ofNat, BitVec.toNat_ofNat] at h
  rw [State.elapsed, elapsedSince, hstart, hnow, h]
  omega

/-! ### The other commands, in every state -/

/-- Settles O10: BANK_INIT leaves the slots, and the rest of INIT is the session and the line. -/
theorem initClearsBankAndSession : Obligations.InitClearsBankAndSession := by
  intro s
  refine ⟨_, exec_init s, fun c => ?_, ?_⟩
  · have hchan : ((s.bankInit.clearSession.select false).respond .ok none).chan c = (s.chan c).init :=
      s.bankInit_chan c
    rw [hchan]
    exact ⟨Buffer.init_contents, rfl, rfl, rfl, rfl, rfl⟩
  · simp [State.done]

/-- A poll that answers 0 holds the STEP (R135). -/
theorem exec_step_held {s : State} (hp : s.phase = .sampling) (hr : s.env.readyAnswer = false) :
    exec .step s = .next s.pollReady.hold := by
  rw [exec_step_sampling s hp, State.waitReady, if_neg (by simp [hr])]

/-- Settles O15: the hold writes the micro-state, the poll consumes its answer and leaves its event. -/
theorem stepHeldWhileNotReady : Obligations.StepHeldWhileNotReady := by
  intro s hp hr
  rw [exec_step_held hp hr, State.pollReady, State.hold, hr]

/-- Settles O16: outside a session STEP only responds, with the flag of the phase. -/
theorem stepOutsideSamplingIgnored : Obligations.StepOutsideSamplingIgnored := by
  refine fun s => ⟨fun h => ?_, fun h => ?_⟩
  · rw [exec_step_ignored s (by simp [h]), State.respond_eq (State.done_of_ne_complete (by simp [h]))]
  · rw [exec_step_ignored s (by simp [h]), State.respond_eq (State.done_of_complete h)]

/-- Settles O17: the four cases of the deadline check, each with the flag of the phase it ends in. -/
theorem pollChecksDeadline : Obligations.PollChecksDeadline := by
  refine fun s => ⟨fun h => ?_, fun h => ?_, fun h hd => ?_, fun h hd => ?_⟩ <;> rw [exec_poll]
  · rw [State.deadlineCheck_outside (by simp [h]), State.respond_eq (State.done_of_ne_complete (by simp [h]))]
  · rw [State.deadlineCheck_outside (by simp [h]), State.respond_eq (State.done_of_complete h)]
  · rw [State.deadlineCheck_early (cfg := Config.hw) h hd, State.respond_eq (State.done_of_ne_complete (by simp [h]))]
  · rw [State.deadlineCheck_due (cfg := Config.hw) h hd, State.respond_eq (State.done_of_complete rfl)]

/-- Settles O18: SNAP only responds, with a copy of the bank in Complete and with none elsewhere. -/
theorem snapGatedOnComplete : Obligations.SnapGatedOnComplete := by
  refine fun s => ⟨fun h => ⟨s.snapshot, s.snapshot_avg, s.snapshot_ts, ?_⟩, fun h => ?_⟩
  · rw [exec_snap_complete s h, State.respond_eq (State.done_of_complete h)]
  · rw [exec_snap_refused s h, State.respond_eq (State.done_of_ne_complete h)]

/-- Settles O19: a reserved opcode only responds. -/
theorem reservedOpcodesIllegal : Obligations.ReservedOpcodesIllegal := by
  rintro i s (rfl | rfl | rfl)
  · exact exec_reserved0 s
  · exact exec_reserved6 s
  · exact exec_reserved7 s

theorem portAction_accepting_command {s : State} {op : CmdOp} {rest : List PortInput} (hm : s.micro = .accepting)
    (h : s.port = .command op :: rest) : portAction s = .run (decode op) { s with port := rest } := by
  simp only [portAction, hm, h, State.takeInput_of_cons h]

/-- Settles O5: the port asks to run the decoded command, with its entry taken off. -/
theorem acceptedCommandRunsDecoded : Obligations.AcceptedCommandRunsDecoded :=
  fun s op rest hm h => by rw [step, portAction_accepting_command hm h]

/-! ### A command that ends with the deadline check: STEP and POLL of a session -/

section Checked

variable {u : State} {cfg : Config}

theorem State.deadlineCheck_phase (h : u.phase = .sampling) :
    (u.deadlineCheck cfg).phase = if cfg.windowMs ≤ u.elapsed.toNat then .complete else .sampling := by
  rw [State.deadlineCheck_sampling h]; split <;> simp [h]

theorem State.deadlineCheck_cs (h : u.phase = .sampling) :
    (u.deadlineCheck cfg).cs = if cfg.windowMs ≤ u.elapsed.toNat then false else u.cs := by
  rw [State.deadlineCheck_sampling h]; split <;> simp

theorem State.deadlineCheck_env (h : u.phase = .sampling) : (u.deadlineCheck cfg).env = u.env.afterNow := by
  rw [State.deadlineCheck_sampling h]; split <;> simp

theorem State.deadlineCheck_trace (h : u.phase = .sampling) :
    (u.deadlineCheck cfg).trace = u.trace ++ [.now u.env.nowAnswer] ++
      if cfg.windowMs ≤ u.elapsed.toNat then [.select false] else [] := by
  rw [State.deadlineCheck_sampling h]; split <;> simp

theorem State.deadlineCheck_done (h : u.phase = .sampling) :
    (u.deadlineCheck cfg).done = decide (cfg.windowMs ≤ u.elapsed.toNat) := by
  rw [State.done, State.deadlineCheck_phase h]; split <;> simp [*]

end Checked

/-- Settles O48: START's clock read is `t_start`, and POLL's flag compares its own clock read with it. -/
theorem pollAfterStartCompletesAtWindow : Obligations.PollAfterStartCompletesAtWindow := by
  intro s
  refine ⟨_, _, exec_start s, exec_poll _, ?_⟩
  rw [State.startSession_hw, State.respond_done, State.deadlineCheck_done rfl, decide_eq_true_eq]
  rfl

/-! ### A performed STEP: transfer and RECORD, then ADVANCE, STAMP on a wrap, and the check (R134) -/

/-- The state in which a performed STEP has recorded its sample and advanced the index. -/
def State.recordAndAdvance (cfg : Config) (s : State) : State :=
  ((s.xfer16 .read).record cfg s.ch (sampleOf s.env.xferAnswer)).advance

@[simp] theorem State.recordAndAdvance_trace (s : State) (cfg : Config) :
    (s.recordAndAdvance cfg).trace = s.trace ++ [.xfer .read s.env.xferAnswer] := rfl

/-- STAMP runs exactly when ADVANCE has brought the index to 0 (R138). -/
theorem State.stampOnWrap_of_ne {s : State} (h : s.ch.val ≠ 0) : s.stampOnWrap = s := if_neg h

theorem State.stampOnWrap_of_eq {s : State} (h : s.ch.val = 0) : s.stampOnWrap = s.stamp := if_pos h

section PerformStep

variable (s : State) (cfg : Config)

theorem State.performStep_chan_self :
    (s.performStep cfg).chan s.ch = (s.chan s.ch).record cfg.accBits (sampleOf s.env.xferAnswer) := by
  obtain ⟨hchans, -⟩ := s.performStep_fields cfg
  rw [State.chan_congr hchans, State.record_chan_self]

theorem State.performStep_chan_ne {c : Fin channels} (h : c ≠ s.ch) : (s.performStep cfg).chan c = s.chan c := by
  obtain ⟨hchans, -⟩ := s.performStep_fields cfg
  rw [State.chan_congr hchans, State.record_chan_ne s cfg s.ch c _ h]

variable {s cfg}

/-- What a performed STEP is after its RECORD, ADVANCE and STAMP have led to `u`: the check, and the response. -/
theorem State.performStep_checked {u : State} (hu : (s.recordAndAdvance cfg).stampOnWrap = u)
    (hp : u.phase = .sampling) :
    (s.performStep cfg).ts = u.ts ∧
    (s.performStep cfg).phase = (if cfg.windowMs ≤ u.elapsed.toNat then .complete else .sampling) ∧
    (s.performStep cfg).cs = (if cfg.windowMs ≤ u.elapsed.toNat then false else u.cs) ∧
    (s.performStep cfg).env = u.env.afterNow ∧
    (s.performStep cfg).trace = u.trace ++ [.now u.env.nowAnswer] ++
      (if cfg.windowMs ≤ u.elapsed.toNat then [.select false] else []) ∧
    (s.performStep cfg).responses =
      s.responses ++ [{ status := .ok, done := decide (cfg.windowMs ≤ u.elapsed.toNat), snap := none }] := by
  obtain ⟨-, -, -, -, -, hresp⟩ := s.performStep_fields cfg
  subst hu
  have hdone : (s.performStep cfg).done = _ := State.deadlineCheck_done hp
  exact ⟨State.deadlineCheck_ts _ cfg, State.deadlineCheck_phase hp, State.deadlineCheck_cs hp,
    State.deadlineCheck_env hp, State.deadlineCheck_trace hp, by rw [hresp, hdone]; rfl⟩

end PerformStep

/-- Settles O12: below channel 15 the index does not come to 0, and the check's clock read is the only one. -/
theorem stepRecordsOneSample : Obligations.StepRecordsOneSample := by
  intro s hp hr hlt r env2 due
  have hnext : (nextIndex s.ch).val = s.ch.val + 1 := Nat.mod_eq_of_lt (Nat.succ_lt_succ hlt)
  have hne : (s.pollReady.recordAndAdvance Config.hw).ch.val ≠ 0 := fun h => Nat.succ_ne_zero _ (hnext.symm.trans h)
  obtain ⟨-, hch, htStart, hmicro, hport, -⟩ := s.pollReady.performStep_fields Config.hw
  obtain ⟨hts, hphase, hcs, henv, htrace, hresp⟩ := State.performStep_checked (State.stampOnWrap_of_ne hne) hp
  refine ⟨_, exec_step_performed hp hr, s.pollReady.performStep_chan_self Config.hw,
    fun c hc => s.pollReady.performStep_chan_ne Config.hw hc, (congrArg Fin.val hch).trans hnext,
    hts, htStart, hphase, hcs, hmicro, hport, henv, htrace.trans ?_, hresp⟩
  rw [State.recordAndAdvance_trace, State.pollReady_trace, hr]
  simp only [List.append_assoc]; rfl

/-- Settles O13: on channel 15 the index comes to 0, so STAMP reads the clock before the check does. -/
theorem stepWrapStampsThenChecks : Obligations.StepWrapStampsThenChecks := by
  intro s hp hr hlast r env2 env3 due
  have hnext : nextIndex s.ch = 0 := Fin.ext (by rw [nextIndex_val, hlast]; rfl)
  have hzero : (s.pollReady.recordAndAdvance Config.hw).ch.val = 0 := congrArg Fin.val hnext
  obtain ⟨-, hch, htStart, hmicro, hport, -⟩ := s.pollReady.performStep_fields Config.hw
  obtain ⟨hts, hphase, hcs, henv, htrace, hresp⟩ := State.performStep_checked (State.stampOnWrap_of_eq hzero) hp
  refine ⟨_, exec_step_performed hp hr, s.pollReady.performStep_chan_self Config.hw,
    fun c hc => s.pollReady.performStep_chan_ne Config.hw hc, hch.trans hnext,
    hts, htStart, hphase, hcs, hmicro, hport, henv, htrace.trans ?_, hresp⟩
  rw [State.stamp_trace, State.recordAndAdvance_trace, State.pollReady_trace, hr]
  simp only [List.append_assoc]; rfl

end Sys2Proof.Machine

namespace Sys2Proof.Safety

open Sys2Proof.Machine

/-! ### Completion: it is kept (R146), and reached by the deadline only (R139, R149) -/

/-- In Complete every command but INIT and START only responds: STEP is ignored, and POLL's check does nothing. -/
theorem exec_of_complete {s : State} {i : Instr} (hp : s.phase = .complete) (hinit : i ≠ .init)
    (hstart : i ≠ .start) : ∃ st p, exec i s = .next (s.respond st p) := by
  rcases exec_cases s i with ⟨hi, _⟩ | ⟨hi, _⟩ | ⟨_, hs, _⟩ | ⟨_, _, e⟩ | ⟨_, e⟩ | ⟨_, _, e⟩ | ⟨_, _, e⟩ | ⟨_, e⟩
  · exact absurd hi hinit
  · exact absurd hi hstart
  · simp [hp] at hs
  · exact ⟨_, _, e⟩
  · rw [State.deadlineCheck_outside (by simp [hp])] at e
    exact ⟨_, _, e⟩
  · exact ⟨_, _, e⟩
  · exact ⟨_, _, e⟩
  · exact ⟨_, _, e⟩

theorem sameCore_refl (s : State) : SameCore s s := ⟨rfl, rfl, rfl, rfl, rfl, rfl⟩

/-- Settles O34: an accepting core polls nothing; an idle port and a response leave the core and the transport alone. -/
theorem completionIsMonotonic : Obligations.CompletionIsMonotonic := by
  intro s hp hm hreset hcommand
  have hdone := State.done_of_complete hp
  rcases step_cases s with ⟨rest, h, _⟩ | ⟨_, _, _, e⟩ | ⟨_, _, e⟩ | ⟨_, _, hw, _⟩ | ⟨_, hw, _⟩ | ⟨op, rest, h, _, e⟩
  · exact absurd h (hreset rest)
  · exact ⟨_, e, sameCore_refl s, hdone, rfl, rfl⟩
  · exact ⟨_, e, sameCore_refl s, hdone, rfl, rfl⟩
  · simp [hm] at hw
  · simp [hm] at hw
  · obtain ⟨hinit, hstart⟩ := hcommand op rest h
    obtain ⟨st, p, e'⟩ := exec_of_complete (s := s.takeInput) hp hinit hstart
    exact ⟨_, e.trans e', sameCore_refl s, hdone, rfl, rfl⟩

/-- From `s` to `t` a deadline check found the window elapsed, as the last thing before the response (R139). -/
def CompletedByDeadline (s t : State) : Prop :=
  t.cs = false ∧ ∃ (pre : List Event) (now : Time),
    t.trace = pre ++ [.now now, .select false] ∧ 60000 ≤ (elapsedSince t.tStart now).toNat ∧ t.tStart = s.tStart

/-- If the phase has become Complete from `s` to `t`, a deadline check did it. -/
def CompletesByDeadlineOnly (s t : State) : Prop :=
  s.phase ≠ .complete → t.phase = .complete → CompletedByDeadline s t

theorem completesByDeadlineOnly_of_phase_eq {s t : State} (h : t.phase = s.phase) : CompletesByDeadlineOnly s t :=
  fun hs ht => absurd (h.symm.trans ht) hs

theorem completesByDeadlineOnly_of_ne {s t : State} (h : t.phase ≠ .complete) : CompletesByDeadlineOnly s t :=
  fun _ ht => absurd ht h

theorem completesByDeadlineOnly_deadlineCheck (s : State) :
    CompletesByDeadlineOnly s (s.deadlineCheck Config.hw) := by
  rcases s.deadlineCheck_cases Config.hw with ⟨_, e⟩ | ⟨_, hdue, e⟩ | ⟨_, _, e⟩ <;> rw [e]
  · exact completesByDeadlineOnly_of_phase_eq rfl
  · exact fun _ _ => ⟨rfl, s.trace, s.env.nowAnswer, by simp, of_decide_eq_true hdue, rfl⟩
  · exact completesByDeadlineOnly_of_phase_eq rfl

/-- A performed STEP completes by its check only: what goes before it writes neither `phase` nor `t_start`. -/
theorem completesByDeadlineOnly_performStep (s : State) :
    CompletesByDeadlineOnly s (s.performStep Config.hw) := by
  have h := completesByDeadlineOnly_deadlineCheck (s.recordAndAdvance Config.hw).stampOnWrap
  unfold CompletesByDeadlineOnly CompletedByDeadline at h
  rw [State.stampOnWrap_phase, State.stampOnWrap_tStart] at h
  exact h

theorem completesByDeadlineOnly_waitReady (s : State) : CompletesByDeadlineOnly s (s.waitReady Config.hw) := by
  rcases s.waitReady_cases Config.hw with ⟨_, e⟩ | ⟨_, e⟩ <;> rw [e]
  · exact completesByDeadlineOnly_performStep s.pollReady
  · exact completesByDeadlineOnly_of_phase_eq rfl

theorem exec_completesByDeadlineOnly {s t : State} (i : Instr) (e : exec i s = .next t) :
    CompletesByDeadlineOnly s t := by
  rcases exec_cases s i with ⟨_, e'⟩ | ⟨_, e'⟩ | ⟨_, _, e'⟩ | ⟨_, _, e'⟩ | ⟨_, e'⟩ | ⟨_, _, e'⟩ | ⟨_, _, e'⟩ | ⟨_, e'⟩ <;>
    cases e'.symm.trans e
  · exact completesByDeadlineOnly_of_ne (by simp)
  · exact completesByDeadlineOnly_of_ne (by simp [State.startSession_hw])
  · exact completesByDeadlineOnly_waitReady s
  · exact completesByDeadlineOnly_of_phase_eq rfl
  · exact completesByDeadlineOnly_deadlineCheck s
  · exact completesByDeadlineOnly_of_phase_eq rfl
  · exact completesByDeadlineOnly_of_phase_eq rfl
  · exact completesByDeadlineOnly_of_phase_eq rfl

/-- Settles O35: reset leaves the phase Idle, an idle port keeps it, and the rest is a poll or a command. -/
theorem onlyDeadlineCompletes : Obligations.OnlyDeadlineCompletes := by
  intro s t hs e
  suffices h : CompletesByDeadlineOnly s t from h hs
  rcases step_cases s with ⟨_, _, e'⟩ | ⟨_, _, _, e'⟩ | ⟨_, _, e'⟩ | ⟨_, _, _, e'⟩ | ⟨_, _, e'⟩ | ⟨op, _, _, _, e'⟩
  · cases e'.symm.trans e; exact completesByDeadlineOnly_of_ne (by simp)
  · cases e'.symm.trans e; exact completesByDeadlineOnly_of_phase_eq rfl
  · cases e'.symm.trans e; exact completesByDeadlineOnly_of_phase_eq rfl
  · cases e'.symm.trans e; exact completesByDeadlineOnly_waitReady s.takeInput
  · cases e'.symm.trans e; exact completesByDeadlineOnly_waitReady s
  · exact exec_completesByDeadlineOnly (s := s.takeInput) (decode op) (e'.symm.trans e)

/-! ### What each operation adds to the count (R148) -/

section CountOps

variable (s : State)

@[simp] theorem readsSinceBegin_stampOnWrap :
    readsSinceBegin s.stampOnWrap.trace = readsSinceBegin s.trace := by
  rcases s.stampOnWrap_cases with ⟨_, e⟩ | ⟨_, e⟩ <;> simp [e, readsSinceBegin_append, countReads]

@[simp] theorem readsSinceBegin_deadlineCheck (cfg : Config) :
    readsSinceBegin (s.deadlineCheck cfg).trace = readsSinceBegin s.trace := by
  rcases s.deadlineCheck_cases cfg with ⟨_, e⟩ | ⟨_, _, e⟩ | ⟨_, _, e⟩ <;>
    simp [e, readsSinceBegin_append, countReads]

/-- A performed STEP makes one transfer (R134). -/
theorem readsSinceBegin_performStep (cfg : Config) :
    readsSinceBegin (s.performStep cfg).trace = readsSinceBegin s.trace + 1 := by
  simp [State.performStep, readsSinceBegin_append, countReads]

end CountOps

/-! ### Every step keeps the count in step with the channel index (R148) -/

/-- The second part of R148: `ch` is the number of transfers since priming, modulo `CHANNELS`. -/
def IndexCounts (s : State) : Prop :=
  s.phase ≠ .idle → ∃ k, readsSinceBegin s.trace = Config.hw.primeXfers + k ∧ s.ch.val = k % channels

theorem channelCounts_iff (s : State) : ChannelCounts s ↔ HeldInSession s ∧ IndexCounts s := Iff.rfl

theorem channelCounts_of_idle {s : State} (hm : s.micro = .accepting) (hp : s.phase = .idle) : ChannelCounts s :=
  (channelCounts_iff s).2 ⟨by simp [HeldInSession, hm], by simp [IndexCounts, hp]⟩

theorem IndexCounts.respond {s : State} (h : IndexCounts s) (st : Status) (p : Option Snapshot) :
    ChannelCounts (s.respond st p) :=
  (channelCounts_iff _).2 ⟨by simp [HeldInSession], h⟩

/-- START restarts the count, and its priming transfer is the first one of the session (R133). -/
theorem indexCounts_startSession (s : State) : IndexCounts (s.startSession Config.hw) := by
  refine fun _ => ⟨0, ?_, rfl⟩
  rw [State.startSession_hw]
  simp [readsSinceBegin_append, countReads]

theorem IndexCounts.pollReady {s : State} (h : IndexCounts s) : IndexCounts s.pollReady := by
  simpa [IndexCounts, readsSinceBegin_append, countReads] using h

/-- The check makes no transfer, and opens no session. -/
theorem IndexCounts.deadlineCheck {s : State} (h : IndexCounts s) (cfg : Config) :
    IndexCounts (s.deadlineCheck cfg) := by
  intro hp
  rw [readsSinceBegin_deadlineCheck, State.deadlineCheck_ch]
  apply h
  rcases s.deadlineCheck_cases cfg with ⟨_, e⟩ | ⟨hs, _⟩ | ⟨hs, _⟩
  · rwa [e] at hp
  · simp [hs]
  · simp [hs]

/-- A performed STEP adds one to the count and one to the index (R134, R137). -/
theorem IndexCounts.performStep {s : State} (h : IndexCounts s) (hp : s.phase = .sampling) :
    IndexCounts (s.performStep Config.hw) := by
  obtain ⟨k, hreads, hch⟩ := h (by simp [hp])
  obtain ⟨-, hnext, -⟩ := s.performStep_fields Config.hw
  refine fun _ => ⟨k + 1, by rw [readsSinceBegin_performStep, hreads, Nat.add_assoc], ?_⟩
  rw [hnext, nextIndex_val, hch, Nat.mod_add_mod]

theorem ChannelCounts.waitReady {s : State} (h : ChannelCounts s) (hp : s.phase = .sampling) :
    ChannelCounts (s.waitReady Config.hw) := by
  have hpolled := ((channelCounts_iff s).1 h).2.pollReady
  rcases s.waitReady_cases Config.hw with ⟨_, e⟩ | ⟨_, e⟩ <;> rw [e]
  · obtain ⟨-, -, -, hmicro, -⟩ := s.pollReady.performStep_fields Config.hw
    exact (channelCounts_iff _).2 ⟨by simp [HeldInSession, hmicro], hpolled.performStep hp⟩
  · exact (channelCounts_iff _).2 ⟨fun _ => hp, hpolled⟩

/-- INIT ends the session, START begins the count again, STEP adds to it, and no other command makes a transfer. -/
theorem exec_keeps_channelCounts {s t : State} (i : Instr) (h : ChannelCounts s) (e : exec i s = .next t) :
    ChannelCounts t := by
  have hindex := ((channelCounts_iff s).1 h).2
  rcases exec_cases s i with ⟨_, e'⟩ | ⟨_, e'⟩ | ⟨_, hp, e'⟩ | ⟨_, _, e'⟩ | ⟨_, e'⟩ | ⟨_, _, e'⟩ | ⟨_, _, e'⟩ | ⟨_, e'⟩ <;>
    cases e'.symm.trans e
  · exact channelCounts_of_idle rfl rfl
  · exact (indexCounts_startSession s).respond .ok none
  · exact h.waitReady hp
  · exact hindex.respond .ignored none
  · exact (hindex.deadlineCheck Config.hw).respond .ok none
  · exact hindex.respond .ok (some s.snapshot)
  · exact hindex.respond .notReady none
  · exact hindex.respond .illegal none

/-- Settles O38: reset ends the session, an idle port changes nothing, and a poll of a held STEP is in a session. -/
theorem stepKeepsChannelCount : Obligations.StepKeepsChannelCount := by
  intro s t h e
  have hheld := ((channelCounts_iff s).1 h).1
  rcases step_cases s with ⟨_, _, e'⟩ | ⟨_, _, _, e'⟩ | ⟨_, _, e'⟩ | ⟨_, _, hm, e'⟩ | ⟨_, hm, e'⟩ | ⟨op, _, _, _, e'⟩
  · cases e'.symm.trans e; exact channelCounts_of_idle rfl rfl
  · cases e'.symm.trans e; exact h
  · cases e'.symm.trans e; exact h
  · cases e'.symm.trans e; exact ChannelCounts.waitReady (s := s.takeInput) h (hheld hm)
  · cases e'.symm.trans e; exact h.waitReady (hheld hm)
  · exact exec_keeps_channelCounts (s := s.takeInput) (decode op) h (e'.symm.trans e)

/-- Settles O39: no session is on after reset, and no STEP is held. -/
theorem resetMeetsChannelCount : Obligations.ResetMeetsChannelCount := channelCounts_of_idle rfl rfl

/-! ### A round of performed STEPs (R147) -/

/-- The events `es` hold a clock read directly after their last transfer, and `ts` is stamped from it (R138). -/
def StampedAfterLastRead (tStart ts : Time) (es : List Event) : Prop :=
  ∃ (pre post : List Event) (r : XferBits) (now : Time),
    es = pre ++ [.xfer .read r, .now now] ++ post ∧ readResults post = [] ∧ ts = elapsedSince tStart now

/-- What goes before the events, and events after them that are no transfers, do not matter. -/
theorem StampedAfterLastRead.append {tStart ts : Time} {es : List Event} (h : StampedAfterLastRead tStart ts es)
    (before : List Event) {after : List Event} (hafter : readResults after = []) :
    StampedAfterLastRead tStart ts (before ++ es ++ after) := by
  obtain ⟨pre, post, r, now, hes, hpost, hts⟩ := h
  refine ⟨before ++ pre, post ++ after, r, now, by simp [hes], ?_, hts⟩
  rw [readResults_append, hpost, hafter, List.append_nil]

/-- A performed STEP of a session makes one transfer, and stamps `ts` after it exactly when the index wraps (R134). -/
theorem performStep_events {s : State} (hp : s.phase = .sampling) :
    ∃ es : List Event,
      (s.performStep Config.hw).trace = s.trace ++ es ∧ readResults es = [s.env.xferAnswer] ∧
      (((nextIndex s.ch).val ≠ 0 ∧ (s.performStep Config.hw).ts = s.ts) ∨
        ((nextIndex s.ch).val = 0 ∧ StampedAfterLastRead s.tStart (s.performStep Config.hw).ts es)) := by
  obtain ⟨stamp, now, hstamp, hcheck⟩ := s.performStep_clock Config.hw hp
  obtain ⟨check, htrace, hquiet⟩ : ∃ check : List Event, (s.performStep Config.hw).trace =
      s.trace ++ ([.xfer .read s.env.xferAnswer] ++ stamp ++ check) ∧ readResults check = [] := by
    rcases hcheck with ⟨_, _, _, htrace⟩ | ⟨_, _, _, htrace⟩
    · exact ⟨[.now now, .select false], by simp [htrace], rfl⟩
    · exact ⟨[.now now], by simp [htrace], rfl⟩
  refine ⟨_, htrace, ?_, ?_⟩
  · rw [readResults_append, hquiet]
    rcases hstamp with ⟨_, rfl, _⟩ | ⟨_, _, rfl, _⟩ <;> rfl
  · rcases hstamp with ⟨hne, _, hts⟩ | ⟨hzero, first, rfl, hts⟩
    · exact .inl ⟨hne, hts⟩
    · exact .inr ⟨hzero, [], check, s.env.xferAnswer, first, by simp, hquiet, hts⟩

/-- R147 for `k` performed STEPs from `s` to `t`, `es` being their events. -/
structure RoundSoFar (k : Nat) (s t : State) (es : List Event) : Prop where
  /-- The events are those of the STEPs and polls. -/
  trace : t.trace = s.trace ++ es
  /-- Each performed STEP made one transfer. -/
  count : (readResults es).length = k
  /-- Channel `c` got one RECORD, of transfer `c`. -/
  recorded : ∀ (c : Fin channels) (h : c.val < (readResults es).length),
    t.chan c = (s.chan c).record 14 (sampleOf (readResults es)[c.val])
  /-- The channels not reached yet are as before. -/
  untouched : ∀ c : Fin channels, k ≤ c.val → t.chan c = s.chan c
  /-- The channel index. -/
  index : t.ch.val = k % 16
  /-- The session is the same. -/
  tStart : t.tStart = s.tStart
  /-- No stamp before the 16th STEP. -/
  unstamped : k < 16 → t.ts = s.ts
  /-- The 16th STEP stamps `ts`. -/
  stamped : k = 16 → StampedAfterLastRead s.tStart t.ts es

theorem RoundSoFar.refl {s : State} (h : s.ch = 0) : RoundSoFar 0 s s [] where
  trace := by simp
  count := rfl
  recorded _ h := absurd h (Nat.not_lt_zero _)
  untouched _ _ := rfl
  index := by rw [h]; rfl
  tStart := rfl
  unstamped _ := rfl
  stamped h := absurd h (by decide)

section Round

variable {k : Nat} {s u : State} {es : List Event}

/-- A poll makes no transfer and writes nothing of the core. -/
theorem RoundSoFar.pollReady (h : RoundSoFar k s u es) :
    RoundSoFar k s u.pollReady (es ++ [.ready u.env.readyAnswer]) := by
  have hreads : readResults (es ++ [.ready u.env.readyAnswer]) = readResults es := by
    rw [readResults_append]
    exact List.append_nil _
  refine ⟨by simp [h.trace], by rw [hreads, h.count], ?_, h.untouched, h.index, h.tStart, h.unstamped, fun hk => ?_⟩
  · simp only [hreads]
    exact h.recorded
  · exact (h.stamped hk).append [] (after := [.ready u.env.readyAnswer]) rfl

/-- The hold writes the micro-state only. -/
theorem RoundSoFar.hold (h : RoundSoFar k s u es) : RoundSoFar k s u.hold es :=
  ⟨h.trace, h.count, h.recorded, h.untouched, h.index, h.tStart, h.unstamped, h.stamped⟩

theorem RoundSoFar.ch_eq (h : RoundSoFar k s u es) (hk : k < 16) : u.ch.val = k :=
  h.index.trans (Nat.mod_eq_of_lt hk)

/-- The next STEP of a round records its transfer into channel `k`, and leaves the others as they are. -/
theorem RoundSoFar.recorded_performStep (h : RoundSoFar k s u es) (hk : k < 16) (c : Fin channels)
    (hc : c.val < (readResults es ++ [u.env.xferAnswer]).length) :
    (u.performStep Config.hw).chan c =
      (s.chan c).record 14 (sampleOf (readResults es ++ [u.env.xferAnswer])[c.val]) := by
  have hch := h.ch_eq hk
  by_cases hcu : c = u.ch
  · subst hcu
    rw [State.performStep_chan_self, h.untouched u.ch hch.ge]
    simp [hch, h.count]
  · have hck : c.val ≠ k := fun e => hcu (Fin.ext (e.trans hch.symm))
    have hlt : c.val < (readResults es).length := by
      rw [List.length_append, List.length_singleton, h.count] at hc
      rw [h.count]
      omega
    rw [State.performStep_chan_ne _ _ hcu, List.getElem_append_left hlt, h.recorded c hlt]

/-- The next STEP of a round advances the index, and stamps `ts` if it is the 16th. -/
theorem RoundSoFar.performStep (h : RoundSoFar k s u es) (hk : k < 16) (hp : u.phase = .sampling) :
    ∃ es', RoundSoFar (k + 1) s (u.performStep Config.hw) es' := by
  obtain ⟨evs, htrace, hread, hts⟩ := performStep_events hp
  obtain ⟨-, hnext, htStart, -⟩ := u.performStep_fields Config.hw
  have hch := h.ch_eq hk
  have hindex : (nextIndex u.ch).val = (k + 1) % 16 := by rw [nextIndex_val, hch]
  have hreads : readResults (es ++ evs) = readResults es ++ [u.env.xferAnswer] := by
    rw [readResults_append, hread]
  refine ⟨es ++ evs, by rw [htrace, h.trace, List.append_assoc], ?_, ?_, fun c hc => ?_, ?_, htStart.trans h.tStart,
    fun hlt => ?_, fun hlast => ?_⟩
  · rw [hreads, List.length_append, h.count, List.length_singleton]
  · simp only [hreads]
    exact h.recorded_performStep hk
  · have hne : c ≠ u.ch := fun e => by
      rw [e] at hc
      omega
    rw [State.performStep_chan_ne _ _ hne]
    exact h.untouched c (Nat.le_of_succ_le hc)
  · rw [hnext, hindex]
  · obtain ⟨_, hsame⟩ := hts.resolve_right fun ⟨hzero, _⟩ => by omega
    rw [hsame, h.unstamped hk]
  · obtain ⟨_, hstamped⟩ := hts.resolve_left fun ⟨hne, _⟩ => by omega
    rw [h.tStart] at hstamped
    simpa using hstamped.append es (after := []) rfl

end Round

/-- R147 by the number of STEPs and polls. -/
theorem PerformedSteps.roundSoFar {k : Nat} {s t : State} (h : PerformedSteps k s t) (hch : s.ch = 0) (hk : k ≤ 16) :
    ∃ es, RoundSoFar k s t es := by
  induction h with
  | refl s => exact ⟨[], .refl hch⟩
  | held _ hp hr he ih =>
    obtain ⟨es, hround⟩ := ih hch hk
    cases (exec_step_held hp hr).symm.trans he
    exact ⟨_, hround.pollReady.hold⟩
  | performed _ hp hr he ih =>
    obtain ⟨es, hround⟩ := ih hch (Nat.le_of_succ_le hk)
    cases (exec_step_performed hp hr).symm.trans he
    exact hround.pollReady.performStep hk hp

/-- Settles O37: the transfers of the round are the read results of its events. -/
theorem roundRobinCycle : Obligations.RoundRobinCycle := by
  intro k s t h hch hk
  obtain ⟨es, hround⟩ := h.roundSoFar hch hk
  exact ⟨es, readResults es, hround.trace, rfl, hround.count, hround.recorded, hround.untouched, hround.index,
    hround.tStart, hround.unstamped, hround.stamped⟩

end Sys2Proof.Safety

namespace Sys2Proof.Machine

open Sys2Proof.Safety

/-! ### The end of a hold (R135, R165) -/

/-- The state a held STEP polls in: an idle entry at the port's head is taken, a command stays (R88). -/
def State.atPoll (s : State) : State := { s with port := portAfterPolls 1 s.port }

/-- A held STEP after `k` polls that answered 0: the port has given its leading idle entries, one at each poll. -/
def State.afterHeldPolls (k : Nat) (s : State) : State :=
  { s with
    port := portAfterPolls k s.port
    env := Env.afterReady^[k] s.env
    trace := s.trace ++ List.replicate k (.ready false) }

theorem portAfterPolls_succ (k : Nat) (p : List PortInput) :
    portAfterPolls 1 (portAfterPolls k p) = portAfterPolls (k + 1) p := by
  induction p generalizing k with
  | nil => simp
  | cons x p ih =>
    cases x with
    | idle => cases k with
      | zero => rfl
      | succ k => exact ih k
    | command op => simp
    | reset => cases k <;> rfl

theorem portAfterPolls_suffix (k : Nat) (p : List PortInput) : portAfterPolls k p <:+ p := by
  induction p generalizing k with
  | nil => simp
  | cons x p ih =>
    cases k with
    | zero => simp
    | succ k => cases x with
      | idle => exact (ih k).trans (List.suffix_cons _ _)
      | command op => exact List.suffix_rfl
      | reset => exact List.suffix_rfl

/-- One more step after a run. -/
theorem runFor_succ_last {k : Nat} {s t : State} (h : runFor k s = .next t) : runFor (k + 1) s = step t := by
  induction k generalizing s with
  | zero =>
    obtain ⟨u, hu, -⟩ := step_next_trace_prefix s
    rw [runFor_succ 0 hu]
    cases h
    exact hu.symm
  | succ k ih =>
    obtain ⟨u, hu, -⟩ := step_next_trace_prefix s
    rw [runFor_succ _ hu] at h ⊢
    exact ih h

section Hold

variable {k : Nat} {s : State}

/-- The next step of a held STEP is one more poll. -/
theorem step_afterHeldPolls (hm : s.micro = .wait) (hport : PortInput.reset ∉ s.port) :
    step (s.afterHeldPolls k) = .next ((s.afterHeldPolls k).atPoll.waitReady Config.hw) :=
  step_held (s.afterHeldPolls k) hm fun h => hport ((portAfterPolls_suffix k s.port).mem h)

/-- A poll that answers 0 is one more of them (R135). -/
theorem State.waitReady_afterHeldPolls (cfg : Config) (hm : s.micro = .wait)
    (hlow : (Env.afterReady^[k] s.env).readyAnswer = false) :
    (s.afterHeldPolls k).atPoll.waitReady cfg = s.afterHeldPolls (k + 1) := by
  have hheld : (s.afterHeldPolls k).atPoll.waitReady cfg = (s.afterHeldPolls k).atPoll.pollReady.hold :=
    if_neg fun h => Bool.false_ne_true (hlow.symm.trans h)
  rw [hheld]
  simp [State.afterHeldPolls, State.atPoll, State.pollReady, State.hold, portAfterPolls_succ, hlow, hm,
    Function.iterate_succ_apply', List.replicate_succ']

/-- While `Ready()` answers 0 a run of a held STEP is its polls (R173). -/
theorem runFor_held (hm : s.micro = .wait) (hport : PortInput.reset ∉ s.port) (hlow : ReadyLowFor k s.env) :
    runFor k s = .next (s.afterHeldPolls k) := by
  induction k with
  | zero => simp [runFor, State.afterHeldPolls]
  | succ k ih =>
    rw [runFor_succ_last (ih fun j hj => hlow j (Nat.lt_succ_of_lt hj)), step_afterHeldPolls hm hport,
      State.waitReady_afterHeldPolls Config.hw hm (hlow k (Nat.lt_succ_self k))]

end Hold

/-- Settles O43: after the polls that answered 0 the next step is the poll that answers 1, and performs the STEP. -/
theorem readyLiftsTheHold : Obligations.ReadyLiftsTheHold := by
  intro k s hm hp hport hlow hhigh
  have hexec : exec .step (s.afterHeldPolls k).atPoll = .next ((s.afterHeldPolls k).atPoll.waitReady Config.hw) :=
    exec_step_sampling _ hp
  have hperformed : exec .step (s.afterHeldPolls k).atPoll =
      .next ((s.afterHeldPolls k).atPoll.pollReady.performStep Config.hw) := exec_step_performed hp hhigh
  have hrun : runFor (k + 1) s = exec .step (s.afterHeldPolls k).atPoll :=
    (runFor_succ_last (runFor_held hm hport hlow)).trans ((step_afterHeldPolls hm hport).trans hexec.symm)
  obtain ⟨-, -, -, hmicro, -, hresp⟩ := (s.afterHeldPolls k).atPoll.pollReady.performStep_fields Config.hw
  refine ⟨_, ?_, hrun.trans hperformed, hmicro, ?_⟩
  · rw [hrun, State.atPoll, State.afterHeldPolls, portAfterPolls_succ]
  · exact hresp

end Sys2Proof.Machine
end

section
/-! PROOFS of the family `43_transport.md`: transfers are made only while the select line is asserted (R161, R162), in
every state after a step and at reset. -/

namespace Sys2Proof.Safety

open Sys2Proof.Machine

/-! ### The replay of the trace, one more event at a time -/

section Replay

variable (tr : List Event)

@[simp] theorem selectReplay_append_select (b : Bool) :
    selectReplay (tr ++ [.select b]) = (b, (selectReplay tr).2) := selectReplay_append tr _

@[simp] theorem selectReplay_append_xfer (w : XferWord) (r : XferBits) :
    selectReplay (tr ++ [.xfer w r]) = ((selectReplay tr).1, (selectReplay tr).2 && (selectReplay tr).1) :=
  selectReplay_append tr _

@[simp] theorem selectReplay_append_ready (b : Bool) : selectReplay (tr ++ [.ready b]) = selectReplay tr :=
  selectReplay_append tr _

@[simp] theorem selectReplay_append_now (t : Time) : selectReplay (tr ++ [.now t]) = selectReplay tr :=
  selectReplay_append tr _

end Replay

/-! ### The invariant apart from the hold, which is between two steps only -/

/-- R162 inside a step: what `TransfersSelected` says of the trace, the line and the phase. -/
structure TransfersFollowLine (s : State) : Prop where
  /-- Every transfer was made with the line asserted. -/
  transfers : (selectReplay s.trace).2 = true
  /-- The line is not asserted without a `Select(1)` in the trace. -/
  level : s.cs = true → (selectReplay s.trace).1 = true
  /-- A session keeps the line asserted. -/
  session : s.phase = .sampling → s.cs = true

theorem transfersSelected_iff (s : State) : TransfersSelected s ↔ TransfersFollowLine s ∧ HeldInSession s := by
  constructor
  · rintro ⟨htransfers, hlevel, hsession, hheld⟩
    exact ⟨⟨htransfers, hlevel, hsession⟩, hheld⟩
  · rintro ⟨⟨htransfers, hlevel, hsession⟩, hheld⟩
    exact ⟨htransfers, hlevel, hsession, hheld⟩

/-- Only the trace, the line and the phase matter. -/
theorem TransfersFollowLine.congr {s t : State} (h : TransfersFollowLine s) (htrace : t.trace = s.trace)
    (hcs : t.cs = s.cs) (hphase : t.phase = s.phase) : TransfersFollowLine t := by
  obtain ⟨htransfers, hlevel, hsession⟩ := h
  constructor
  · rwa [htrace]
  · rwa [hcs, htrace]
  · rwa [hphase, hcs]

/-! ### One rule per adapter call (R161 to R164) -/

/-- A `Select` makes line and trace agree, whatever they were before (R161). -/
theorem transfersFollowLine_select {s : State} (htransfers : (selectReplay s.trace).2 = true) {b : Bool}
    (hsession : s.phase = .sampling → b = true) : TransfersFollowLine (s.select b) where
  transfers := by simpa using htransfers
  level := by simp
  session := hsession

/-- A transfer is allowed while the line is asserted (R162). -/
theorem TransfersFollowLine.xfer16 {s : State} (h : TransfersFollowLine s) (hcs : s.cs = true) (w : XferWord) :
    TransfersFollowLine (s.xfer16 w) where
  transfers := by simp [h.transfers, h.level hcs]
  level _ := by simp [h.level hcs]
  session := h.session

theorem TransfersFollowLine.pollReady {s : State} (h : TransfersFollowLine s) : TransfersFollowLine s.pollReady where
  transfers := by simpa using h.transfers
  level := by simpa using h.level
  session := h.session

theorem TransfersFollowLine.readClock {s : State} (h : TransfersFollowLine s) : TransfersFollowLine s.readClock where
  transfers := by simpa using h.transfers
  level := by simpa using h.level
  session := h.session

/-! ### The shared operations -/

/-- After a hardware reset the line is down and no session is on; the trace stays (R190). -/
theorem TransfersFollowLine.hardReset {s : State} (h : TransfersFollowLine s) : TransfersFollowLine s.hardReset where
  transfers := h.transfers
  level := by simp
  session := by simp

theorem TransfersFollowLine.stampOnWrap {s : State} (h : TransfersFollowLine s) :
    TransfersFollowLine s.stampOnWrap := by
  rcases s.stampOnWrap_cases with ⟨_, e⟩ | ⟨_, e⟩ <;> rw [e]
  · exact h.readClock.congr rfl rfl rfl
  · exact h

/-- DEADLINE_CHECK drops the line only as it ends the session (R139). -/
theorem TransfersFollowLine.deadlineCheck {s : State} (h : TransfersFollowLine s) (cfg : Config) :
    TransfersFollowLine (s.deadlineCheck cfg) := by
  rcases s.deadlineCheck_cases cfg with ⟨_, e⟩ | ⟨_, _, e⟩ | ⟨_, _, e⟩ <;> rw [e]
  · exact h
  · exact transfersFollowLine_select (s := s.readClock.setPhase .complete) h.readClock.transfers (by simp)
  · exact h.readClock

theorem TransfersFollowLine.primingXfers {s : State} (h : TransfersFollowLine s) (hcs : s.cs = true) (k : Nat) :
    TransfersFollowLine (s.primingXfers k) := by
  induction k generalizing s with
  | zero => exact h
  | succ k ih => exact ih (h.xfer16 hcs .read) hcs

/-- START asserts the line before its first transfer (R133). -/
theorem TransfersFollowLine.startSession {s : State} (h : TransfersFollowLine s) (cfg : Config) :
    TransfersFollowLine (s.startSession cfg) := by
  have hselected : TransfersFollowLine (s.openSession.select true) :=
    transfersFollowLine_select (s := s.openSession) h.readClock.transfers fun _ => rfl
  exact (hselected.xfer16 rfl .begin).primingXfers rfl cfg.primeXfers

/-- INIT ends the session with the line down (R132). -/
theorem TransfersFollowLine.init {s : State} (h : TransfersFollowLine s) :
    TransfersFollowLine (s.bankInit.clearSession.select false) :=
  transfersFollowLine_select (s := s.bankInit.clearSession) h.transfers (by simp)

/-- The one transfer of a performed STEP is made in a session, so with the line asserted (R134). -/
theorem TransfersFollowLine.performStep {s : State} (h : TransfersFollowLine s) (hp : s.phase = .sampling)
    (cfg : Config) : TransfersFollowLine (s.performStep cfg) := by
  have hadvanced :
      TransfersFollowLine ((s.xfer16 .read).record cfg s.ch (sampleOf s.env.xferAnswer)).advance :=
    (h.xfer16 (h.session hp) .read).congr rfl rfl rfl
  exact (hadvanced.stampOnWrap.deadlineCheck cfg).congr rfl rfl rfl

/-! ### Every step keeps the invariant (R162) -/

theorem TransfersFollowLine.respond {s : State} (h : TransfersFollowLine s) (st : Status) (p : Option Snapshot) :
    TransfersSelected (s.respond st p) :=
  (transfersSelected_iff _).2 ⟨h.congr rfl rfl rfl, by simp [HeldInSession]⟩

theorem TransfersFollowLine.waitReady {s : State} (h : TransfersFollowLine s) (hp : s.phase = .sampling)
    (cfg : Config) : TransfersSelected (s.waitReady cfg) := by
  rcases s.waitReady_cases cfg with ⟨_, e⟩ | ⟨_, e⟩ <;> rw [e]
  · obtain ⟨-, -, -, hmicro, -⟩ := s.pollReady.performStep_fields cfg
    exact (transfersSelected_iff _).2 ⟨h.pollReady.performStep hp cfg, by simp [HeldInSession, hmicro]⟩
  · exact (transfersSelected_iff _).2 ⟨h.pollReady.congr rfl rfl rfl, fun _ => hp⟩

/-- INIT, START, STEP and POLL by the rules of their operations; no other command touches the line or the trace. -/
theorem exec_keeps_transfersSelected {s t : State} (i : Instr) (h : TransfersFollowLine s) (e : exec i s = .next t) :
    TransfersSelected t := by
  rcases exec_cases s i with ⟨_, e'⟩ | ⟨_, e'⟩ | ⟨_, hp, e'⟩ | ⟨_, _, e'⟩ | ⟨_, e'⟩ | ⟨_, _, e'⟩ | ⟨_, _, e'⟩ | ⟨_, e'⟩ <;>
    cases e'.symm.trans e
  · exact h.init.respond .ok none
  · exact (h.startSession Config.hw).respond .ok none
  · exact h.waitReady hp Config.hw
  · exact h.respond .ignored none
  · exact (h.deadlineCheck Config.hw).respond .ok none
  · exact h.respond .ok (some s.snapshot)
  · exact h.respond .notReady none
  · exact h.respond .illegal none

/-- Settles O40: reset drops the line and ends the session, an idle port changes nothing of either, a poll of a held
STEP is in a session, and a command keeps the invariant. -/
theorem stepKeepsTransfersSelected : Obligations.StepKeepsTransfersSelected := by
  intro s t h e
  obtain ⟨hline, hheld⟩ := (transfersSelected_iff s).1 h
  have htaken : TransfersFollowLine s.takeInput := hline.congr rfl rfl rfl
  rcases step_cases s with ⟨_, _, e'⟩ | ⟨_, _, _, e'⟩ | ⟨_, _, e'⟩ | ⟨_, _, hm, e'⟩ | ⟨_, hm, e'⟩ | ⟨op, _, _, _, e'⟩
  · cases e'.symm.trans e; exact (transfersSelected_iff _).2 ⟨htaken.hardReset, by simp [HeldInSession]⟩
  · cases e'.symm.trans e; exact (transfersSelected_iff _).2 ⟨htaken, hheld⟩
  · cases e'.symm.trans e; exact h
  · cases e'.symm.trans e; exact htaken.waitReady (hheld hm) Config.hw
  · cases e'.symm.trans e; exact hline.waitReady (hheld hm) Config.hw
  · exact exec_keeps_transfersSelected (decode op) htaken (e'.symm.trans e)

/-- The empty trace holds no transfer, and the line is down in Idle (R47). -/
theorem transfersFollowLine_reset : TransfersFollowLine State.reset where
  transfers := rfl
  level := by simp [State.reset]
  session := by simp [State.reset]

/-- Settles O41: the trace is empty, and no STEP is held. -/
theorem resetMeetsTransfersSelected : Obligations.ResetMeetsTransfersSelected :=
  (transfersSelected_iff _).2 ⟨transfersFollowLine_reset, by simp [HeldInSession, State.reset]⟩

end Sys2Proof.Safety
end

section
/-! PROOFS of the family `60_exceptions.md`: a hang changes nothing of the core, for as long as it lasts (R173). -/

namespace Sys2Proof.Safety

open Sys2Proof.Machine

/-- The polls of a held STEP leave the core's own state of R30 as it was (R173). -/
theorem sameCore_afterHeldPolls (k : Nat) (s : State) : SameCore s (s.afterHeldPolls k) :=
  ⟨rfl, rfl, rfl, rfl, rfl, rfl⟩

/-- Settles O42: the run is its `k` polls, and those write the port, the transport's answers and the trace only. -/
theorem hangChangesNothing : Obligations.HangChangesNothing := by
  intro k s hm _ hport hlow
  exact ⟨s.afterHeldPolls k, runFor_held hm hport hlow, sameCore_afterHeldPolls k s, hm, rfl, rfl, rfl⟩

end Sys2Proof.Safety
end

section
/-! PROOFS of the family `70_reset_and_hazards.md`: the reset input (R190), reset beside INIT (R191), commands before
the first START (R193), and a sample taken after the deadline (R201). -/

namespace Sys2Proof.Machine

open Sys2Proof.Safety

/-! ### The reset input (R190) and INIT (R191) -/

section Reset

variable {s : State} {rest : List PortInput}

/-- `RST` comes before the micro-state: a held STEP is no reason to poll. -/
theorem portAction_reset (h : s.port = .reset :: rest) : portAction s = .reset { s with port := rest } := by
  simp only [portAction, h, State.takeInput_of_cons h]

theorem step_reset (h : s.port = .reset :: rest) : step s = .next ({ s with port := rest } : State).hardReset := by
  rw [step, portAction_reset h]

end Reset

/-- Settles O8: the step is a hardware reset, which gives every channel BUF_INIT and average 0, and writes neither the
records nor the inputs. -/
theorem resetInputClearsCore : Obligations.ResetInputClearsCore := by
  intro s rest h
  refine ⟨_, step_reset h, fun c => ?_, rfl, rfl, rfl, rfl, rfl, rfl, rfl, rfl, rfl, rfl⟩
  rw [State.hardReset_chan]
  exact ⟨Buffer.init_contents, rfl, rfl, rfl, rfl⟩

/-- What INIT writes beyond a hardware reset: the event of its `Select(0)`, and its response (R191). -/
theorem exec_init_eq_hardReset (s : State) :
    exec .init s = .next { s.hardReset with
      trace := s.trace ++ [.select false]
      responses := s.responses ++ [{ status := .ok, done := false, snap := none }] } := rfl

/-- Settles O46: both states are the hardware reset, up to the port and the two records. -/
theorem resetAndInitAgreeOnCore : Obligations.ResetAndInitAgreeOnCore :=
  fun s _ h => ⟨_, _, step_reset h, exec_init_eq_hardReset s, sameCore_refl s.hardReset, rfl, rfl, rfl, rfl, rfl⟩

/-! ### Commands at a time they are of no use, or late (R193, R201) -/

/-- Settles O47: below channel 15 the check's clock read is the first, and on channel 15 the second, after STAMP's. -/
theorem sampleTakenAfterDeadline : Obligations.SampleTakenAfterDeadline := by
  intro s hp hr hfirst hsecond
  rcases Nat.lt_or_eq_of_le (Nat.le_of_lt_succ s.ch.isLt) with hlt | hlast
  · obtain ⟨t, e, hrecord, -, -, -, -, hphase, hcs, -⟩ := stepRecordsOneSample s hp hr hlt
    exact ⟨t, e, hphase.trans (if_pos hfirst), hcs.trans (if_pos hfirst), hrecord⟩
  · obtain ⟨t, e, hrecord, -, -, -, -, hphase, hcs, -⟩ := stepWrapStampsThenChecks s hp hr hlast
    exact ⟨t, e, hphase.trans (if_pos hsecond), hcs.trans (if_pos hsecond), hrecord⟩

/-- Settles O49: in Idle each of the three commands writes the micro-state and its response only. -/
theorem misorderedBootHarmless : Obligations.MisorderedBootHarmless := by
  rintro i s (rfl | rfl | rfl) hp
  · obtain ⟨hstep, -⟩ := stepOutsideSamplingIgnored s
    exact ⟨_, _, hstep hp, sameCore_refl s, rfl, rfl, rfl, rfl, rfl, rfl, rfl⟩
  · obtain ⟨hpoll, -⟩ := pollChecksDeadline s
    exact ⟨_, _, hpoll hp, sameCore_refl s, rfl, rfl, rfl, rfl, rfl, rfl, rfl⟩
  · obtain ⟨-, hsnap⟩ := snapGatedOnComplete s
    exact ⟨_, _, hsnap (by simp [hp]), sameCore_refl s, rfl, rfl, rfl, rfl, rfl, rfl, rfl⟩

end Sys2Proof.Machine
end
